-- ==== Sys2Proof/Word.lean ====
section
/-! DEFINITION. The machine's word types: bytes of packets and Frames, samples of the audio ports (spec/00_scope.md R10). -/

namespace Sys2Proof

/-- `u8` (R10). -/
abbrev Byte := BitVec 8

/-- `i16`: a sample crossing the SRC or SNK port, read as a two's-complement number by `BitVec.toInt` (R10, R64). -/
abbrev Sample := BitVec 16

end Sys2Proof
end

