-- ==== Sys2Proof/Config.lean ====
section
/-! DEFINITION. What is fixed for one machine: the parameters of spec/00_scope.md R9 with their defaults, the numerics
record of R14 as uninterpreted functions, the types of the configuration registers and of what CFG derives from them
(spec/10_state.md R21 to R28), and the free values: what the spec leaves to the environment or calls unspecified. -/

namespace Sys2Proof

/-- ROLE (R21): which transport run loop exists. -/
inductive Role where
  | standalone
  | master
  | slave
  deriving DecidableEq, Repr, Inhabited

/-- MODE (R22). -/
inductive Mode where
  | simple
  | dataFrame
  deriving DecidableEq, Repr, Inhabited

/-- The configuration registers of R21 to R23 (CFG_VALID apart). Frequencies, durations and fractions are exact
rationals (R14). -/
structure CfgRegs where
  role        : Role
  devAddr     : Byte
  sampleRate  : Rat
  nCh         : Nat
  firstFreq   : Rat
  freqStep    : Rat
  tOnePulse   : Rat
  tBreak      : Rat
  fadeLength  : Rat
  secdedEn    : Bool
  mode        : Mode
  nfft        : Nat
  nfftValid   : Bool
  threshold   : Rat
  thrValid    : Bool
  deriving DecidableEq, Repr, Inhabited

/-- The derived constants and ROMs of R25 to R28, written only by CFG. `tone` holds, per channel, the buffer of bit 0
and the buffer of bit 1 (R60: one list per memory space, addressed by element index). -/
structure Rom where
  low    : List Rat
  high   : List Rat
  nEnc   : Nat
  nDec   : Nat
  nAct   : Nat
  nBrk   : Nat
  nTail  : Nat
  lFade  : Nat
  deltaF : Rat
  kLo    : List Nat
  kHi    : List Nat
  bLo    : Nat
  bHi    : Nat
  tone   : List (List Rat × List Rat)
  cal    : List Sample
  win    : List Rat
  deriving DecidableEq, Repr, Inhabited

/-- The named parameters of R9 (U7, U12, U13), the numerics record apart. They are fixed for one device, so every state
carries its own and no step changes them (log 20). -/
structure Params where
  /-- CH_MAX: the largest legal `noOfChannels` (R311) -/
  chMax            : Nat
  /-- HEX_MAX: the largest length in characters of a pending hex string (R170) -/
  hexMax           : Nat
  /-- RX_MAX: the capacity in bytes of RX_BYTES, and in digits of RX_HEX (R214) -/
  rxMax            : Nat
  /-- TIMEOUT_DEFAULT_MS: the reset value of the master's timeout (R44) -/
  timeoutDefaultMs : BitVec 32
  /-- CAL_FREQ: the frequency of the calibration tone in Hz (R166) -/
  calFreq          : Rat
  deriving DecidableEq, Repr, Inhabited

namespace Config

/-- The defaults of R9. -/
def defaultParams : Params := { chMax := 16, hexMax := 255, rxMax := 4096, timeoutDefaultMs := 20000, calFreq := 40 }

/-- `Num.sin` of the numerics record (R14, U3), left uninterpreted (DESIGN CHOICE, log 8). -/
opaque numSin : Rat → Rat

/-- `Num.cos` of the numerics record (R14, U3), left uninterpreted (DESIGN CHOICE, log 8). -/
opaque numCos : Rat → Rat

/-- `Num.pi` of the numerics record (R14, U3), left uninterpreted (DESIGN CHOICE, log 8). -/
opaque numPi : Rat

/-- FREE VALUE: which agent takes the next turn where the state lists none (R72, U10; log 2). -/
opaque freeAgent : Nat → Nat

/-- FREE VALUE: whether a pull beyond the listed replies succeeds (R67, U1; log 5). -/
opaque freeSrcOk : Nat → Bool

/-- FREE VALUE: the samples of such a pull, by element index (R67, U1; log 5). -/
opaque freeSample : Nat → Nat → Sample

/-- FREE VALUE: whether a push beyond the listed replies succeeds (R68, U2; log 6). -/
opaque freeSnkOk : Nat → Bool

/-- FREE VALUE: by how much NOW advances beyond the listed advances (R43, U11; log 7). -/
opaque freeTick : Nat → Nat

/-- FREE VALUE: the configuration registers after a reset, "unspecified" in R50 (U5; log 9). -/
opaque unspecifiedCfg : Nat → CfgRegs

/-- FREE VALUE: the derived constants and ROMs after a reset, "unspecified" in R50 (U5; log 9). -/
opaque unspecifiedRom : Nat → Rom

/-- FREE VALUE: FRAME_BUF outside DEC_PHASE = HaveFrame, "unspecified" in R50 (U5; log 9). -/
opaque unspecifiedFrameBuf : Nat → List Sample

/-- FREE VALUE: the byte that carries a length above 255, which no rule states (R104, R99; log 30). -/
opaque oversizeByte : Nat → Byte

end Config

end Sys2Proof
end

