-- ==== Sys2Proof/Syntax.lean ====
section
/-! DEFINITION. The instruction set: one constructor per row of spec/opcode_table.json, with the records and code tables
of spec/30_encoding.md that instructions carry or answer with. -/

namespace Sys2Proof

/-- The operand fields of a HOSTCMD packet (R90): `flags`, `a`, `b` and the payload; the field `len` is the payload's
length. Which of them an operation reads, and which must be zero, is said in Machine/Operands.lean. -/
structure Operands where
  flags   : Byte
  a       : Byte
  b       : Byte
  payload : List Byte
  deriving DecidableEq, Repr

/-- A Data Frame (R103): `data` is present only when the command is STX. -/
structure Frame where
  receiverAddress : Byte
  command         : Byte
  data            : Option (List Byte)
  checksum        : Byte
  deriving DecidableEq, Repr

/-- Parser Result (R106). -/
inductive ParserResult where
  | parsingOk
  | incorrectFrameLength
  | startByteNotFound
  | frameBuildError
  | checksumIncorrect
  | otherRecipient
  deriving DecidableEq, Repr

/-- Address Check Result (R107). -/
inductive AddrCheck where
  | ok
  | broadcast
  | otherRecipient
  deriving DecidableEq, Repr

/-- Error codes (R108); `ok` is the table's None. -/
inductive ErrCode where
  | ok
  | notConfigured
  | alreadyConfigured
  | badOpcode
  | badPacket
  | wrongRole
  | wrongMode
  | busy
  | invalidHexData
  | doubleErrorDetected
  | missingCommand
  | missingData
  | dataTooLarge
  | ioError
  | configError
  | noPending
  | decoderUnavailable
  deriving DecidableEq, Repr

/-- The instructions. The first 24 are the host operations of R92, each with the operand fields of its packet; the last
four are the classes of a received Frame's command byte (R113), each with what the Frame carries besides its class:
the receiver address and, for STX, the data, for CMD.OTHER the command byte itself. -/
inductive Instr where
  | cfg (o : Operands)
  | rst (o : Operands)
  | rdst (o : Operands)
  | hex2bin (o : Operands)
  | bstr2arr (o : Operands)
  | bin2hex (o : Operands)
  | fecEnc (o : Operands)
  | fecDec (o : Operands)
  | encLdhex (o : Operands)
  | encLdfrm (o : Operands)
  | encRun (o : Operands)
  | decStart (o : Operands)
  | decStop (o : Operands)
  | decRdhex (o : Operands)
  | decRdfrm (o : Operands)
  | frmBuild (o : Operands)
  | frmParse (o : Operands)
  | mSend (o : Operands)
  | mSendbc (o : Operands)
  | mIdle (o : Operands)
  | mStop (o : Operands)
  | mSetto (o : Operands)
  | sStart (o : Operands)
  | sStop (o : Operands)
  | stx (addr : Byte) (data : List Byte)
  | ack (addr : Byte)
  | nak (addr : Byte)
  | cmdOther (addr : Byte) (cmd : Byte)
  deriving DecidableEq, Repr

end Sys2Proof
end

