-- ==== Sys2Proof/Machine/Bits.lean ====
section
/-! DEFINITION. Bit, byte and hex helpers: the pure converters of spec/40_converters.md and the numeric codes of
spec/30_encoding.md R106 to R108. Strings of characters are lists of ASCII bytes (R94); bit sequences are lists of Bool,
first bit first (R11). -/

namespace Sys2Proof.Machine

/-- Control codes and special addresses (R100, R101, R19). -/
def SOH : Byte := 0x01
def STX : Byte := 0x02
def ETX : Byte := 0x03
def EOT : Byte := 0x04
def ACK : Byte := 0x06
def NAK : Byte := 0x15
def BROADCAST : Byte := 0xFF
def MASTER_ADDR : Byte := 0x00

/-- The numeric code of a Parser Result (R106). -/
def parserResultCode : ParserResult → Byte
  | .parsingOk => 0
  | .incorrectFrameLength => 1
  | .startByteNotFound => 2
  | .frameBuildError => 3
  | .checksumIncorrect => 4
  | .otherRecipient => 5

/-- The numeric code of an Address Check Result (R107). -/
def addrCheckCode : AddrCheck → Byte
  | .ok => 0
  | .broadcast => 1
  | .otherRecipient => 2

/-- The numeric code of an error (R108). -/
def errCode : ErrCode → Byte
  | .ok => 0x00
  | .notConfigured => 0x01
  | .alreadyConfigured => 0x02
  | .badOpcode => 0x04
  | .badPacket => 0x05
  | .wrongRole => 0x06
  | .wrongMode => 0x07
  | .busy => 0x08
  | .invalidHexData => 0x10
  | .doubleErrorDetected => 0x11
  | .missingCommand => 0x12
  | .missingData => 0x13
  | .dataTooLarge => 0x14
  | .ioError => 0x15
  | .configError => 0x16
  | .noPending => 0x17
  | .decoderUnavailable => 0x18

/-- `isPow2` (R10). -/
def isPow2 (m : Nat) : Bool := m == 2 ^ m.log2

/-- Append `z` until the length satisfies `done`, at most `fuel` times: the loops of R128, R129 and R234. -/
def appendUntil {α : Type} (done : Nat → Bool) (z : α) : Nat → List α → List α
  | 0, l => l
  | fuel + 1, l => if done l.length then l else appendUntil done z fuel (l ++ [z])

/-- The number a bit sequence denotes, most significant bit first (R62). -/
def bitsToNat (bits : List Bool) : Nat := bits.foldl (fun v b => 2 * v + b.toNat) 0

/-- The 8 bits of a byte, most significant first (R62). -/
def byteBits (b : Byte) : List Bool := (List.range 8).map fun i => b.getLsbD (7 - i)

/-- `bytes2bits` (R125). -/
def bytes2bits (bs : List Byte) : List Bool := bs.flatMap byteBits

/-- The byte whose bit 7 is the first of 8 bits (R126). -/
def bitsByte (bits : List Bool) : Byte := BitVec.ofNat 8 (bitsToNat bits)

/-- `bits2bytes` (R126), for a length that is a multiple of 8. -/
def bits2bytes : List Bool → List Byte
  | b0 :: b1 :: b2 :: b3 :: b4 :: b5 :: b6 :: b7 :: rest =>
    bitsByte [b0, b1, b2, b3, b4, b5, b6, b7] :: bits2bytes rest
  | _ => []

/-- The value of a hexadecimal digit character, `none` for any other character (R120, R121). -/
def hexVal (c : Byte) : Option (BitVec 4) :=
  if 0x30 ≤ c.toNat && c.toNat ≤ 0x39 then some (BitVec.ofNat 4 (c.toNat - 0x30))
  else if 0x41 ≤ c.toNat && c.toNat ≤ 0x46 then some (BitVec.ofNat 4 (c.toNat - 0x41 + 10))
  else if 0x61 ≤ c.toNat && c.toNat ≤ 0x66 then some (BitVec.ofNat 4 (c.toNat - 0x61 + 10))
  else none

/-- `hexdigit` (R123): `'0'..'9'`, `'a'..'f'`. -/
def hexDigit (v : Nat) : Byte := if v < 10 then BitVec.ofNat 8 (0x30 + v) else BitVec.ofNat 8 (0x61 + (v - 10))

/-- `validHex` (R120): at most one leading `'-'` is dropped; the rest must be a non-empty string of hex digits. -/
def validHex (s : List Byte) : Except ErrCode (List Byte) :=
  let t := match s with
    | [] => []
    | c :: rest => if c = 0x2D then rest else c :: rest
  if t.isEmpty then .error .invalidHexData
  else if t.all fun c => (hexVal c).isSome then .ok t
  else .error .invalidHexData

/-- `char` (R121): `char(0) = '0'`, `char(1) = '1'`. -/
def bitChar (b : Bool) : Byte := if b then 0x31 else 0x30

/-- The four bits of a nibble, most significant first (R62). -/
def nibbleBits (v : BitVec 4) : List Bool := [v.getLsbD 3, v.getLsbD 2, v.getLsbD 1, v.getLsbD 0]

/-- The four binary characters of one hex digit (R121). -/
def hexDigitChars (c : Byte) : List Byte := (nibbleBits ((hexVal c).getD 0)).map bitChar

/-- `hex2bin` (R121). -/
def hex2bin (s : List Byte) : Except ErrCode (List Byte) :=
  match validHex s with
  | .error e => .error e
  | .ok t => .ok (t.flatMap hexDigitChars)

/-- `binArrayFromBinStr` (R122), on a string of `'0'` and `'1'`. -/
def binArrayFromBinStr (s : List Byte) : List Bool := s.map fun c => c == 0x31

/-- `bin2hex` (R123), for a length that is a multiple of 4. -/
def bin2hex : List Bool → List Byte
  | b0 :: b1 :: b2 :: b3 :: rest => hexDigit (bitsToNat [b0, b1, b2, b3]) :: bin2hex rest
  | _ => []

/-- `padBits` (R128). -/
def padBits (bits : List Bool) (n k : Nat) : List Bool := appendUntil (fun len => k * len % n == 0) false n bits

/-- `fillSlot` (R129). -/
def fillSlot (bits : List Bool) (n : Nat) : List Bool := appendUntil (fun len => len % n == 0) false n bits

/-- The number a byte sequence denotes, most significant byte first (R64, R94). -/
def beNat (bs : List Byte) : Nat := bs.foldl (fun v b => 256 * v + b.toNat) 0

/-- A 32-bit value as 4 bytes, most significant first (R64). -/
def be32 (w : BitVec 32) : List Byte :=
  [w.extractLsb' 24 8, w.extractLsb' 16 8, w.extractLsb' 8 8, w.extractLsb' 0 8]

end Sys2Proof.Machine
end

