-- ==== Sys2Proof/Machine/Codec.lean ====
section
/-! DEFINITION. The Frame codec of spec/44_frame_codec.md as pure functions: build R230 to R235, serialize R236, parse
R240 to R247. -/

namespace Sys2Proof.Machine

/-- `frmPad` (R234): zero bytes until `(2·8·(len + 6)) mod n = 0`. -/
def frmPad (n : Nat) (data : List Byte) : List Byte :=
  appendUntil (fun len => 2 * 8 * (len + 6) % n == 0) 0 n data

/-- A length as one byte (R104, R99). A length above 255, which the default CH_MAX excludes, has no stated byte: a free
value (log 30). -/
def lengthByte (len : Nat) : Byte := if len < 256 then BitVec.ofNat 8 len else Config.oversizeByte len

/-- The Frame with data of R230: checksum `len(d) + 6` (R235). -/
def dataFrame (n : Nat) (addr : Byte) (data : List Byte) : Frame :=
  { receiverAddress := addr, command := STX, data := some (frmPad n data),
    checksum := lengthByte ((frmPad n data).length + 6) }

/-- The command-only Frame of R230, R232: checksum 5. -/
def cmdFrame (addr cmd : Byte) : Frame :=
  { receiverAddress := addr, command := cmd, data := none, checksum := 5 }

/-- `frmBuild` (R230), with the errors in the order of R231. -/
def frmBuild (n : Nat) (addr : Byte) (cmd : Option Byte) (data : Option (List Byte)) : Except ErrCode Frame :=
  match cmd with
  | none => .error .missingCommand
  | some c =>
    if c = STX then
      match data with
      | none => .error .missingData
      | some d =>
        if d.isEmpty then .error .missingData
        else if 127 < d.length then .error .dataTooLarge
        else .ok (dataFrame n addr d)
    else .ok (cmdFrame addr c)

/-- `frmSerialize` (R236, R102). -/
def frmSerialize (f : Frame) : List Byte :=
  match f.data with
  | some d => [SOH, f.receiverAddress, f.command] ++ d ++ [ETX, f.checksum, EOT]
  | none => [SOH, f.receiverAddress, f.command, f.checksum, EOT]

/-- `checkAddress` (R243). -/
def checkAddress (a : Byte) (dev : Option Byte) : AddrCheck :=
  match dev with
  | none => .ok
  | some d => if a = BROADCAST then .broadcast else if a = d then .ok else .otherRecipient

/-- The data of an STX Frame: what stands from index 3 before the first ETX; `none` when there is no ETX (R245). -/
def dataSpan (rest : List Byte) : Option (List Byte) :=
  if rest.contains ETX then some (rest.takeWhile (fun b => b != ETX)) else none

/-- The second-to-last byte of the input (R246). -/
def wireChecksum (bs : List Byte) : Byte := bs.getD (bs.length - 2) 0

/-- The last steps of `frmParse`: rebuild the Frame and compare its checksum with the wire's (R246). -/
def rebuildFrame (n : Nat) (bs : List Byte) (addr cmd : Byte) (data : Option (List Byte)) (ac : AddrCheck) :
    Option Frame × ParserResult × AddrCheck :=
  match frmBuild n addr (some cmd) data with
  | .error _ => (none, .frameBuildError, ac)
  | .ok f => if f.checksum = wireChecksum bs then (some f, .parsingOk, ac) else (none, .checksumIncorrect, ac)

/-- `frmParse` after the address check (R244 to R246). -/
def parseBody (n : Nat) (bs : List Byte) (addr cmd : Byte) (rest : List Byte) (ac : AddrCheck) :
    Option Frame × ParserResult × AddrCheck :=
  if cmd = STX then
    match dataSpan rest with
    | none => (none, .frameBuildError, ac)
    | some d => rebuildFrame n bs addr cmd (some d) ac
  else if bs.length = 5 then rebuildFrame n bs addr cmd none ac
  else (none, .incorrectFrameLength, ac)

/-- `frmParse` (R240). -/
def frmParse (bs : List Byte) (n : Nat) (dev : Option Byte) : Option Frame × ParserResult × AddrCheck :=
  let early : AddrCheck := if dev.isNone then .ok else .otherRecipient
  if bs.length < 5 then (none, .incorrectFrameLength, early)
  else
    match bs with
    | b0 :: addr :: cmd :: rest =>
      if b0 ≠ SOH then (none, .startByteNotFound, early)
      else if checkAddress addr dev = .otherRecipient then (none, .otherRecipient, .otherRecipient)
      else parseBody n bs addr cmd rest (checkAddress addr dev)
    | _ => (none, .incorrectFrameLength, early)

/-- The parse result record of R99. -/
def parseRecord (r : Option Frame × ParserResult × AddrCheck) : List Byte :=
  [parserResultCode r.2.1, addrCheckCode r.2.2] ++
    match r.1 with
    | none => [0]
    | some f =>
      [1, f.receiverAddress, f.command, f.checksum] ++
        match f.data with
        | none => [0, 0]
        | some d => [1, lengthByte d.length] ++ d

end Sys2Proof.Machine
end

