-- ==== Sys2Proof/Machine/Operands.lean ====
section
/-! DEFINITION. Operand forms of the HOSTCMD packet: the flags of spec/30_encoding.md R91, operand assembly R94, the
configuration record R95, and for every operand form the must-be-zero and length checks whose breach is `BadPacket`
(R96 (b)). -/

namespace Sys2Proof.Machine

/-- CV (R91): the field `b` holds a command. -/
def opCV (o : Operands) : Bool := o.flags.getLsbD 0

/-- DV (R91): the payload is the `data` operand. -/
def opDV (o : Operands) : Bool := o.flags.getLsbD 1

/-- AV (R91): the field `a` holds a device address. -/
def opAV (o : Operands) : Bool := o.flags.getLsbD 2

/-- The command operand: absent (the source's null) when CV = 0 (R91). -/
def opCmd (o : Operands) : Option Byte := if opCV o then some o.b else none

/-- The data operand: absent when DV = 0, else the payload, possibly empty (R94). -/
def opData (o : Operands) : Option (List Byte) := if opDV o then some o.payload else none

/-- The device address operand of FRM.PARSE: absent when AV = 0 (R91). -/
def opDev (o : Operands) : Option Byte := if opAV o then some o.a else none

/-- The message of FEC.ENC, 4 bits, first bit `a[3]` (R92, R143). -/
def opMessage (o : Operands) : List Bool := nibbleBits (o.a.extractLsb' 0 4)

/-- The received word of FEC.DEC, 8 bits, first bit `a[7]` (R92, R145). -/
def opWord (o : Operands) : List Bool := byteBits o.a

/-- The payload as a bit array, one byte 0x00 or 0x01 per bit (R94). -/
def opBitArray (o : Operands) : List Bool := o.payload.map fun c => c == 0x01

/-- The payload as a big-endian u32 (R94; M.SETTO, R264). -/
def opU32 (o : Operands) : BitVec 32 := BitVec.ofNat 32 (beNat o.payload)

/-- `len` is one byte, so a packet's payload has at most 255 bytes (R90). -/
def formLen (o : Operands) : Bool := decide (o.payload.length ≤ 255)

/-- The form of an operation that takes a payload and no other operand (R90, R91). -/
def formPayload (o : Operands) : Bool := formLen o && (o.flags == 0 && o.a == 0 && o.b == 0)

/-- The form of an operation without operands (R90, R91). -/
def formPlain (o : Operands) : Bool := formPayload o && o.payload.isEmpty

/-- The form of an operation with the optional operands command and data: flag bits other than CV and DV zero, `b` zero
without CV, no payload without DV (R91, R94; opcode table, ENC.LDFRM: "flags: CV, DV allowed"). -/
def formCmdData (o : Operands) : Bool :=
  formLen o && (o.flags &&& 0xFC == 0) && (opCV o || o.b == 0) && (opDV o || o.payload.isEmpty)

/-- The form of M.SENDBC: as `formCmdData` with `a` unused (R262). -/
def formBroadcast (o : Operands) : Bool := formCmdData o && o.a == 0

/-- The form of FRM.PARSE: flag bits other than AV zero, `a` zero without AV, `b` unused (R91, R92; opcode table: "flags: AV
allowed"). -/
def formParse (o : Operands) : Bool :=
  formLen o && (o.flags &&& 0xFB == 0) && (opAV o || o.a == 0) && o.b == 0

/-- The form of FEC.ENC: only `a` is used and `a[7:4]` is zero (R94). -/
def formNibble (o : Operands) : Bool :=
  (o.flags == 0 && o.b == 0 && o.payload.isEmpty) && o.a.extractLsb' 4 4 == 0

/-- The form of FEC.DEC: only `a` is used (R92). -/
def formByte (o : Operands) : Bool := o.flags == 0 && o.b == 0 && o.payload.isEmpty

/-- The form of BSTR2ARR: every payload byte is `'0'` or `'1'` (R122). -/
def formBinStr (o : Operands) : Bool := formPayload o && o.payload.all fun c => c == 0x30 || c == 0x31

/-- The form of BIN2HEX: every payload byte is 0x00 or 0x01 and the length is a multiple of 4 (R94, R123). -/
def formBitArray (o : Operands) : Bool :=
  formPayload o && (o.payload.all fun c => c == 0x00 || c == 0x01) && o.payload.length % 4 == 0

/-- The form of ENC.LDHEX: a string of at most HEX_MAX characters (R170; log 20). -/
def formHex (hexMax : Nat) (o : Operands) : Bool := formPayload o && decide (o.payload.length ≤ hexMax)

/-- The form of M.SETTO: a payload of 4 bytes (R96, R264). -/
def formTimeout (o : Operands) : Bool := formPayload o && o.payload.length == 4

/-! ### The configuration record (R95) -/

/-- The bytes of a field of the record, by offset and size. -/
def recBytes (p : List Byte) (off size : Nat) : List Byte := (p.drop off).take size

/-- A big-endian field of the record. -/
def recNat (p : List Byte) (off size : Nat) : Nat := beNat (recBytes p off size)

/-- A numerator and denominator field of the record as a rational. -/
def recFrac (p : List Byte) (off : Nat) : Rat := (recNat p off 4 : Rat) / (recNat p (off + 4) 4 : Rat)

/-- The denominator of such a field. -/
def recDen (p : List Byte) (off : Nat) : Nat := recNat p (off + 4) 4

/-- A bit of the `given` byte: 0 TP, 1 TB, 2 FADE, 3 SECDED, 4 MODE, 5 NFFT, 6 THR (R95). -/
def recGiven (p : List Byte) (i : Nat) : Bool := (p.getD 2 0).getLsbD i

/-- A bit of the `values` byte: 0 SECDED_EN, 1 MODE (R95). -/
def recValue (p : List Byte) (i : Nat) : Bool := (p.getD 3 0).getLsbD i

/-- A field is all zero. -/
def recZero (p : List Byte) (off size : Nat) : Bool := (recBytes p off size).all fun c => c == 0

/-- The role field: 3..255 are illegal (R95). -/
def recRole (p : List Byte) : Option Role :=
  match (p.getD 0 0).toNat with
  | 0 => some .standalone
  | 1 => some .master
  | 2 => some .slave
  | _ => none

/-- The form of CFG: 54 payload bytes, a legal role code, `devaddr` zero unless the role is Slave, reserved bits zero, and
every field whose `given` bit is 0 all zero (R95, R96). -/
def formCfg (o : Operands) : Bool :=
  let p := o.payload
  formPayload o && (p.length == 54)
    && (recRole p).isSome
    && (recRole p == some Role.slave || p.getD 1 0 == 0)
    && !recGiven p 7
    && ((p.getD 3 0) &&& 0xFC == 0)
    && (recGiven p 0 || recZero p 18 8)
    && (recGiven p 1 || recZero p 26 8)
    && (recGiven p 2 || recZero p 34 8)
    && (recGiven p 3 || !recValue p 0)
    && (recGiven p 4 || !recValue p 1)
    && (recGiven p 5 || recZero p 42 4)
    && (recGiven p 6 || recZero p 46 8)

/-- The configuration registers a record asks for, with the defaults of R315 for what it does not give; what R315 gives
no default (NFFT, THRESHOLD when not given) keeps its earlier value `old` (log 22). For a master DEV_ADDR is 0x00
(R312). -/
def recRegs (p : List Byte) (old : CfgRegs) : CfgRegs :=
  let step : Rat := recNat p 14 4
  let tp : Rat := if recGiven p 0 then recFrac p 18 else 2 / step
  { role := (recRole p).getD .standalone
    devAddr := if recRole p = some .slave then p.getD 1 0 else MASTER_ADDR
    sampleRate := recNat p 4 4
    nCh := recNat p 8 2
    firstFreq := recNat p 10 4
    freqStep := step
    tOnePulse := tp
    tBreak := if recGiven p 1 then recFrac p 26 else 2 * tp
    fadeLength := if recGiven p 2 then recFrac p 34 else 1 / 20
    secdedEn := if recGiven p 3 then recValue p 0 else true
    mode := if recGiven p 4 then (if recValue p 1 then .dataFrame else .simple) else .dataFrame
    nfft := if recGiven p 5 then recNat p 42 4 else old.nfft
    nfftValid := recGiven p 5
    threshold := if recGiven p 6 then recFrac p 46 else old.threshold
    thrValid := recGiven p 6 }

/-- Check 4 of R311: the fractions a record gives have a non-zero denominator and lie in their ranges. -/
def recFractionsOk (p : List Byte) : Bool :=
  (!recGiven p 0 || (recDen p 18 != 0 && decide (0 < recFrac p 18)))
    && (!recGiven p 1 || (recDen p 26 != 0 && decide (0 ≤ recFrac p 26)))
    && (!recGiven p 2 || (recDen p 34 != 0 && decide (0 ≤ recFrac p 34 ∧ recFrac p 34 ≤ 1 / 2)))
    && (!recGiven p 6 || recDen p 46 != 0)

end Sys2Proof.Machine
end

