-- ==== Sys2Proof/WellFormed.lean ====
section
/-! DEFINITION. Which terms of `Instr` the encodings of spec/30_encoding.md admit: for a host operation the packet form of
R90, R91, R94, R95 (R96 (b) calls every other packet malformed), for a received command byte its class (R113) and a
data span the parser can deliver (spec/44_frame_codec.md R240, R245). -/

namespace Sys2Proof

open Machine in
/-- The checks on an instruction's operands. -/
def Instr.wellFormed : Instr → Bool
  | .cfg o => formCfg o
  | .rst o => formPlain o
  | .rdst o => formPlain o
  | .hex2bin o => formPayload o
  | .bstr2arr o => formBinStr o
  | .bin2hex o => formBitArray o
  | .fecEnc o => formNibble o
  | .fecDec o => formByte o
  | .encLdhex o => formPayload o
  | .encLdfrm o => formCmdData o
  | .encRun o => formPlain o
  | .decStart o => formPlain o
  | .decStop o => formPlain o
  | .decRdhex o => formPlain o
  | .decRdfrm o => formPlain o
  | .frmBuild o => formCmdData o
  | .frmParse o => formParse o
  | .mSend o => formCmdData o
  | .mSendbc o => formBroadcast o
  | .mIdle o => formPlain o
  | .mStop o => formPlain o
  | .mSetto o => formTimeout o
  | .sStart o => formPlain o
  | .sStop o => formPlain o
  | .stx _ data => !data.isEmpty && decide (data.length ≤ 127) && !data.contains ETX
  | .ack _ => true
  | .nak _ => true
  | .cmdOther _ cmd => cmd != STX && cmd != ACK && cmd != NAK

end Sys2Proof
end

