-- ==== Sys2Proof/Decode.lean ====
section
/-! DEFINITION. The decoders and the encoder. A host packet (format HOSTCMD, spec/30_encoding.md R90 to R92) is read from
the byte stream of the HOST port; a received Frame (format CTRL, R102, R113) from the bytes of the handoff slot. The two
formats never meet in one stream: byte 0x01 is CFG's opcode in the one and SOH in the other. Decoding a packet yields its
instruction whatever its operand fields hold: a listed opcode with a malformed packet is that operation's `BadPacket`
(R96 (b), R324), so it is the meaning that answers it. -/

namespace Sys2Proof

/-- Why the bytes of the HOST port are no instruction. `incomplete`: the packet's bytes have not all arrived (R90: its
length is known from the header alone). `badOpcode`: an opcode R92 does not list (R96 (a)), with the bytes after the
packet. -/
inductive PacketError where
  | incomplete
  | badOpcode (op : Byte) (rest : List Byte)
  deriving DecidableEq, Repr

/-- The opcode list of R92. -/
def hostInstr (op : Byte) (o : Operands) : Option Instr :=
  match op.toNat with
  | 0x01 => some (.cfg o)
  | 0x02 => some (.rst o)
  | 0x03 => some (.rdst o)
  | 0x10 => some (.hex2bin o)
  | 0x11 => some (.bstr2arr o)
  | 0x12 => some (.bin2hex o)
  | 0x18 => some (.fecEnc o)
  | 0x19 => some (.fecDec o)
  | 0x20 => some (.encLdhex o)
  | 0x21 => some (.encLdfrm o)
  | 0x22 => some (.encRun o)
  | 0x30 => some (.decStart o)
  | 0x31 => some (.decStop o)
  | 0x32 => some (.decRdhex o)
  | 0x33 => some (.decRdfrm o)
  | 0x40 => some (.frmBuild o)
  | 0x41 => some (.frmParse o)
  | 0x50 => some (.mSend o)
  | 0x51 => some (.mSendbc o)
  | 0x52 => some (.mIdle o)
  | 0x53 => some (.mStop o)
  | 0x54 => some (.mSetto o)
  | 0x58 => some (.sStart o)
  | 0x59 => some (.sStop o)
  | _ => none

/-- One packet from the front of the HOST port's bytes, with the bytes after it (R90, R96 (a)). -/
def decodePacket : List Byte → Except PacketError (Instr × List Byte)
  | op :: fl :: a :: b :: len :: rest =>
    if rest.length < len.toNat then .error .incomplete
    else
      match hostInstr op { flags := fl, a := a, b := b, payload := rest.take len.toNat } with
      | some i => .ok (i, rest.drop len.toNat)
      | none => .error (.badOpcode op (rest.drop len.toNat))
  | _ => .error .incomplete

/-- The class of a parsed Frame's command byte (R113): STX, ACK, NAK, any other value. -/
def ctrlOfFrame (f : Frame) : Instr :=
  if f.command = Machine.STX then .stx f.receiverAddress (f.data.getD [])
  else if f.command = Machine.ACK then .ack f.receiverAddress
  else if f.command = Machine.NAK then .nak f.receiverAddress
  else .cmdOther f.receiverAddress f.command

/-- The instruction a received Frame stands for, for a device with `n` channels and address `dev`; where the bytes are no
Frame for it, the parser's verdict by name (R240). -/
def decodeFrame (n : Nat) (dev : Option Byte) (bs : List Byte) : Except (ParserResult × AddrCheck) Instr :=
  match Machine.frmParse bs n dev with
  | (some f, _, _) => .ok (ctrlOfFrame f)
  | (none, r) => .error r

/-! ### The encoder -/

/-- The opcode of a host operation (R92); `none` for the classes of a command byte. -/
def opcodeOf : Instr → Option Byte
  | .cfg _ => some 0x01
  | .rst _ => some 0x02
  | .rdst _ => some 0x03
  | .hex2bin _ => some 0x10
  | .bstr2arr _ => some 0x11
  | .bin2hex _ => some 0x12
  | .fecEnc _ => some 0x18
  | .fecDec _ => some 0x19
  | .encLdhex _ => some 0x20
  | .encLdfrm _ => some 0x21
  | .encRun _ => some 0x22
  | .decStart _ => some 0x30
  | .decStop _ => some 0x31
  | .decRdhex _ => some 0x32
  | .decRdfrm _ => some 0x33
  | .frmBuild _ => some 0x40
  | .frmParse _ => some 0x41
  | .mSend _ => some 0x50
  | .mSendbc _ => some 0x51
  | .mIdle _ => some 0x52
  | .mStop _ => some 0x53
  | .mSetto _ => some 0x54
  | .sStart _ => some 0x58
  | .sStop _ => some 0x59
  | .stx _ _ => none
  | .ack _ => none
  | .nak _ => none
  | .cmdOther _ _ => none

/-- The bytes of a packet (R90): header `opcode, flags, a, b, len`, then the payload. -/
def packetBytes (op : Byte) (o : Operands) : List Byte :=
  [op, o.flags, o.a, o.b, BitVec.ofNat 8 o.payload.length] ++ o.payload

/-- The words of an instruction: packet bytes (R90, R92) for a host operation, wire bytes (R102, R104) for a received
command. -/
def encode : Instr → List Byte
  | .cfg o => packetBytes 0x01 o
  | .rst o => packetBytes 0x02 o
  | .rdst o => packetBytes 0x03 o
  | .hex2bin o => packetBytes 0x10 o
  | .bstr2arr o => packetBytes 0x11 o
  | .bin2hex o => packetBytes 0x12 o
  | .fecEnc o => packetBytes 0x18 o
  | .fecDec o => packetBytes 0x19 o
  | .encLdhex o => packetBytes 0x20 o
  | .encLdfrm o => packetBytes 0x21 o
  | .encRun o => packetBytes 0x22 o
  | .decStart o => packetBytes 0x30 o
  | .decStop o => packetBytes 0x31 o
  | .decRdhex o => packetBytes 0x32 o
  | .decRdfrm o => packetBytes 0x33 o
  | .frmBuild o => packetBytes 0x40 o
  | .frmParse o => packetBytes 0x41 o
  | .mSend o => packetBytes 0x50 o
  | .mSendbc o => packetBytes 0x51 o
  | .mIdle o => packetBytes 0x52 o
  | .mStop o => packetBytes 0x53 o
  | .mSetto o => packetBytes 0x54 o
  | .sStart o => packetBytes 0x58 o
  | .sStop o => packetBytes 0x59 o
  | .stx addr data => [0x01, addr, 0x02] ++ data ++ [0x03, BitVec.ofNat 8 (data.length + 6), 0x04]
  | .ack addr => [0x01, addr, 0x06, 0x05, 0x04]
  | .nak addr => [0x01, addr, 0x15, 0x05, 0x04]
  | .cmdOther addr cmd => [0x01, addr, cmd, 0x05, 0x04]

/-! ### The table's words -/

/-- A 40-bit header word as the HOST port takes it, most significant byte first (R90), followed by the `len` zero payload
bytes that stand above the table's bits (log 19). -/
def headerBytes (w : Nat) : List Byte :=
  [BitVec.ofNat 8 (w / 2 ^ 32), BitVec.ofNat 8 (w / 2 ^ 24), BitVec.ofNat 8 (w / 2 ^ 16), BitVec.ofNat 8 (w / 2 ^ 8),
    BitVec.ofNat 8 w] ++ List.replicate (w % 256) 0

/-- The wire Frame whose command byte is `w` and whose other operand bytes are zero: address 0x00 and, for STX, one data
byte 0x00 (log 19). -/
def ctrlBytes (w : Nat) : List Byte :=
  if BitVec.ofNat 8 w = Machine.STX then [0x01, 0x00, 0x02, 0x00, 0x03, 0x07, 0x04]
  else [0x01, 0x00, BitVec.ofNat 8 w, 0x05, 0x04]

/-- The instruction the decoder reads from a row's bits, numbered as spec/opcode_table.json numbers them: an 8-bit row is
the command byte of a wire Frame, every other row a HOSTCMD header (log 19). -/
def decodeTableWord (nbits w : Nat) : Option Instr :=
  if nbits = 8 then
    match decodeFrame 1 none (ctrlBytes w) with
    | .ok i => some i
    | .error _ => none
  else
    match decodePacket (headerBytes w) with
    | .ok (i, _) => some i
    | .error _ => none

end Sys2Proof
end

