-- ==== Sys2Proof/Machine/Fec.lean ====
section
/-! DEFINITION. The Hamming(8,4) SECDED code of spec/41_hamming_fec.md as pure functions: matrices R140, arithmetic over
GF(2) R141, encode R143, syndrome R144, decode R145, stream forms R148, R149. -/

namespace Sys2Proof.Machine

/-- G (R140): row i is the code word of the message with only bit i set (log 21). -/
def fecG : List (List Bool) :=
  [[true, true, true, false, false, false, false, true],
   [true, false, false, true, true, false, false, true],
   [false, true, false, true, false, true, false, true],
   [true, true, false, true, false, false, true, false]]

/-- Hᵗ (R140): row j is the syndrome of an error in position j alone (log 21). -/
def fecHt : List (List Bool) :=
  [[true, false, false, true],
   [false, true, false, true],
   [true, true, false, true],
   [false, false, true, true],
   [true, false, true, true],
   [false, true, true, true],
   [true, true, true, true],
   [false, false, false, true]]

/-- R (R140): column k has its single 1 in the row of the position that carries message bit k (log 21). -/
def fecR : List (List Bool) :=
  [[false, false, false, false],
   [false, false, false, false],
   [true, false, false, false],
   [false, false, false, false],
   [false, true, false, false],
   [false, false, true, false],
   [false, false, false, true],
   [false, false, false, false]]

/-- Component j of a row vector times a matrix, mod 2 (R141). -/
def gf2Component (v : List Bool) (m : List (List Bool)) (j : Nat) : Bool :=
  (List.zip v m).foldl (fun acc p => acc ^^ (p.1 && p.2.getD j false)) false

/-- A row vector times a matrix with `cols` columns, mod 2 (R141). -/
def gf2Mul (v : List Bool) (m : List (List Bool)) (cols : Nat) : List Bool :=
  (List.range cols).map (gf2Component v m)

/-- `par(w)` (R141): the parity of the number of ones. -/
def par (w : List Bool) : Bool := w.foldl (· ^^ ·) false

/-- `fecEnc` (R143). -/
def fecEncBits (m : List Bool) : List Bool := gf2Mul m fecG 8

/-- `syn(w)` (R144). -/
def syn (w : List Bool) : List Bool := gf2Mul w fecHt 4

/-- Flip the bit at position j. -/
def flipAt (w : List Bool) (j : Nat) : List Bool := w.modify j (fun b => !b)

/-- `fecDec` (R145): `none` is `DoubleErrorDetected`. -/
def fecDecBits (w : List Bool) : Option (List Bool) :=
  if syn w = [false, false, false, false] then some (gf2Mul w fecR 4)
  else if par w then some (gf2Mul (flipAt w (fecHt.idxOf (syn w))) fecR 4)
  else none

/-- `fecEncStream` (R148), for a length that is a multiple of 4. -/
def fecEncStream : List Bool → List Bool
  | b0 :: b1 :: b2 :: b3 :: rest => fecEncBits [b0, b1, b2, b3] ++ fecEncStream rest
  | _ => []

/-- `fecDecStream` (R149), for a length that is a multiple of 8: one double error in any group fails the whole call. -/
def fecDecStream : List Bool → Option (List Bool)
  | b0 :: b1 :: b2 :: b3 :: b4 :: b5 :: b6 :: b7 :: rest =>
    match fecDecBits [b0, b1, b2, b3, b4, b5, b6, b7], fecDecStream rest with
    | some m, some ms => some (m ++ ms)
    | _, _ => none
  | _ => some []

end Sys2Proof.Machine
end

