-- ==== Sys2Proof/Machine/State.lean ====
section
/-! DEFINITION. The machine's state (spec/10_state.md), plain data: the configuration, the encoder, the decoder, the
handoff slot, the master and the slave, status and result, events and time; with what the environment gives through the
ports held as lists of its coming inputs (spec/20_memory.md R66 to R72). -/

namespace Sys2Proof.Machine

/-- ENC_PHASE (R29). -/
inductive EncPhase where
  | idle
  | transmitting
  deriving DecidableEq, Repr

/-- DEC_PHASE (R30). -/
inductive DecPhase where
  | top
  | haveFrame
  deriving DecidableEq, Repr

/-- M_STATE (R38). -/
inductive MState where
  | idle
  | sending
  | awaitingResponse
  deriving DecidableEq, Repr

/-- S_STATE (R39). -/
inductive SState where
  | idle
  | receiving
  deriving DecidableEq, Repr

/-- An action of the master's queue (R38). -/
structure Action where
  addr : Byte
  cmd  : Option Byte
  data : Option (List Byte)
  bc   : Bool
  deriving DecidableEq, Repr

/-- `TransmissionResult` (R35, R109). -/
inductive TransmissionResult where
  | bytes (bs : List Byte)
  | sourceError
  deriving DecidableEq, Repr

/-- Events on the EVT port (R110). The command of `logFrameSent` is the action's own, optional in `Action` (log 27). -/
inductive Event where
  | onDataReceived (bytes : List Byte)
  | onCommandReceived (cmd : Byte)
  | onTransmissionConfirmed
  | onTransmissionTimedOut
  | logFrameSent (addr : Byte) (cmd : Option Byte)
  | logAckReceived
  | logNakReceived
  | logRetry (retries : BitVec 32)
  | logDecodeError (e : ErrCode)
  | logParseResult (pr : ParserResult) (ac : AddrCheck)
  | logSendFailed (e : ErrCode)
  | logIoError (sink : Bool)
  deriving DecidableEq, Repr

/-- The agents that take steps (R16), and the reset input (R350). -/
inductive Agent where
  | host
  | enc
  | dec
  | master
  | slave
  | clk
  | resetIn
  deriving DecidableEq, Repr

/-- A reply of the sample source (R67). -/
inductive SrcReply where
  | ok (samples : List Sample)
  | err
  deriving DecidableEq, Repr

/-- One push across the SNK port (R68): the buffer handed over and whether the sink answered `Ok`. -/
structure SinkPush where
  buf : List Sample
  ok  : Bool
  deriving DecidableEq, Repr

/-- Encoder registers (R29). -/
structure EncRegs where
  phase : EncPhase
  hex   : Option (List Byte)
  frm   : Option Frame
  bits  : List Bool
  slot  : Nat
  err   : ErrCode
  deriving DecidableEq, Repr

/-- Decoder registers (R30 to R33). -/
structure DecRegs where
  run      : Bool
  alive    : Bool
  phase    : DecPhase
  frameBuf : List Sample
  err      : ErrCode
  old      : List Rat
  raw      : List Bool
  msg      : List Bool
  rxHex    : List Byte
  rxBytes  : List Byte
  eot      : Bool
  ded      : Bool
  ovf      : Bool
  deriving DecidableEq, Repr

/-- Master registers (R38). -/
structure MasterRegs where
  state   : MState
  pend    : Option Action
  last    : Option Action
  t0      : BitVec 64
  stopReq : Bool
  tmo     : Bool
  txWait  : Bool
  retries : BitVec 32
  err     : ErrCode
  deriving DecidableEq, Repr

/-- Slave registers (R39). -/
structure SlaveRegs where
  state  : SState
  run    : Bool
  reply  : Option Byte
  txWait : Bool
  deriving DecidableEq, Repr

/-- The state of one device (R20) and of the environment at its ports. -/
structure State where
  /-- the device's parameters (R9; log 20) -/
  params    : Params
  /-- CFG_VALID (R21) -/
  cfgValid  : Bool
  /-- the configuration registers (R21 to R23) -/
  cfg       : CfgRegs
  /-- the derived constants and ROMs (R25 to R28) -/
  rom       : Rom
  /-- the encoder (R29) -/
  enc       : EncRegs
  /-- the decoder (R30 to R33) -/
  dec       : DecRegs
  /-- HSLOT (R35) -/
  hslot     : Option TransmissionResult
  /-- the master (R38) -/
  mst       : MasterRegs
  /-- the slave (R39) -/
  slv       : SlaveRegs
  /-- TIMEOUT_MS (R44) -/
  timeoutMs : BitVec 32
  /-- what STATUS.LERR shows (R40, R323; log 13) -/
  lerr      : ErrCode
  /-- RES_CODE (R41) -/
  resCode   : ErrCode
  /-- RES_BUF (R41) -/
  resBuf    : List Byte
  /-- HOST waits for the response of its own ENC.RUN (R81, R93; log 14) -/
  hostWait  : Bool
  /-- EVT, oldest event first (R42) -/
  evt       : List Event
  /-- what crossed the SNK port, oldest push first (R68; log 6) -/
  snkOut    : List SinkPush
  /-- NOW (R43) -/
  now       : BitVec 64
  /-- the agents whose turns come next (R72; log 2) -/
  sched     : List Agent
  /-- the bytes the HOST port still has to take (R90; log 4) -/
  hostIn    : List Byte
  /-- the source's next replies (R67; log 5) -/
  srcIn     : List SrcReply
  /-- the sink's next replies, true for `Ok` (R68; log 6) -/
  snkIn     : List Bool
  /-- the clock's next advances in milliseconds (R43; log 7) -/
  clkIn     : List Nat
  /-- the counter that free values are applied to (log 10) -/
  free      : Nat
  deriving DecidableEq, Repr

/-- Why the machine stops: never. No rule of the spec stops the block ("none of these should terminate the process",
R325), there is no access fault (R61), and every error is a result code or a register (R322, R323); so the type has no
constructor (log 24). -/
inductive Fault where
  deriving DecidableEq, Repr

/-- Why an instruction has no meaning. -/
inductive Refusal where
  /-- Raised by `exec`'s arm of an instruction that is not modelled yet; safe (the machine stops where the hardware goes
  on). No arm raises it. -/
  | notModelled (mnemonic : String)
  deriving DecidableEq, Repr

/-- The encoder registers after reset (R50). -/
def EncRegs.reset : EncRegs :=
  { phase := .idle, hex := none, frm := none, bits := [], slot := 0, err := .ok }

/-- The decoder registers after reset (R50); FRAME_BUF is unspecified there and so a free value (log 9), and OLD is 0 for
every channel (log 11). -/
def DecRegs.reset (frameBuf : List Sample) : DecRegs :=
  { run := false, alive := false, phase := .top, frameBuf := frameBuf, err := .ok, old := [], raw := [], msg := [],
    rxHex := [], rxBytes := [], eot := false, ded := false, ovf := false }

/-- The master registers after reset (R50). -/
def MasterRegs.reset : MasterRegs :=
  { state := .idle, pend := none, last := none, t0 := 0, stopReq := false, tmo := false, txWait := false, retries := 0,
    err := .ok }

/-- The slave registers after reset (R50). -/
def SlaveRegs.reset : SlaveRegs :=
  { state := .idle, run := false, reply := none, txWait := false }

/-- A device with the parameters `p` right after reset (R50, R350). The registers R50 calls unspecified hold the free
values numbered `k` (log 9); what reset does not touch (EVT, NOW, the ports' inputs) starts empty or 0 (DESIGN CHOICE,
log 10). -/
def State.resetWith (p : Params) (k : Nat) : State :=
  { params := p
    cfgValid := false
    cfg := Config.unspecifiedCfg k
    rom := Config.unspecifiedRom k
    enc := EncRegs.reset
    dec := DecRegs.reset (Config.unspecifiedFrameBuf k)
    hslot := none
    mst := MasterRegs.reset
    slv := SlaveRegs.reset
    timeoutMs := p.timeoutDefaultMs
    lerr := .ok
    resCode := .ok
    resBuf := []
    hostWait := false
    evt := []
    snkOut := []
    now := 0
    sched := []
    hostIn := []
    srcIn := []
    snkIn := []
    clkIn := []
    free := k + 1 }

/-- The machine right after reset (R50, R350), with the default parameters of R9. -/
def State.reset : State := State.resetWith Config.defaultParams 0

end Sys2Proof.Machine
end

