-- ==== Sys2Proof/Machine/Ops.lean ====
section
/-! DEFINITION. The operations every meaning is made of: the port primitives of spec/00_scope.md R13, delivery of an error
(spec/60_exceptions.md R322 to R324: what an instruction set calls taking an exception), the host operation's checks in
the order of R324, and the reset transition (spec/70_reset_and_hazards.md R350). -/

namespace Sys2Proof.Machine

/-! ### Element access (R12, R60) -/

/-- `MemRead(space, i)` (R12, R60): one element of a space of numbers; every index a rule generates lies inside (R61). -/
def memRead (space : List Rat) (i : Nat) : Rat := space.getD i 0

/-! ### Ports -/

/-- The numeric code of an event (R110). -/
def eventCode : Event → Byte
  | .onDataReceived _ => 0x01
  | .onCommandReceived _ => 0x02
  | .onTransmissionConfirmed => 0x03
  | .onTransmissionTimedOut => 0x04
  | .logFrameSent _ _ => 0x10
  | .logAckReceived => 0x11
  | .logNakReceived => 0x12
  | .logRetry _ => 0x13
  | .logDecodeError _ => 0x14
  | .logParseResult _ _ => 0x15
  | .logSendFailed _ => 0x16
  | .logIoError _ => 0x17

/-- `Emit(ev)` (R13, R69): append to the EVT trace. -/
def emit (e : Event) (s : State) : State := { s with evt := s.evt ++ [e] }

/-- The agent numbered n, for a free turn (log 2). -/
def agentOfNat (n : Nat) : Agent :=
  match n % 7 with
  | 0 => .host
  | 1 => .enc
  | 2 => .dec
  | 3 => .master
  | 4 => .slave
  | 5 => .clk
  | _ => .resetIn

/-- Whose turn it is (R72): the head of the schedule, or any agent where the schedule lists none (log 2). -/
def takeTurn (s : State) : Agent × State :=
  match s.sched with
  | a :: rest => (a, { s with sched := rest })
  | [] => (agentOfNat (Config.freeAgent s.free), { s with free := s.free + 1 })

/-- `SrcPull()` (R13, R67, R194): the source's next reply, or any reply where none is listed (log 5); a reply of the wrong
length counts as `Err`. -/
def srcPull (s : State) : SrcReply × State :=
  let fit : SrcReply → SrcReply := fun r =>
    match r with
    | .ok samples => if samples.length = s.rom.nDec then .ok samples else .err
    | .err => .err
  match s.srcIn with
  | r :: rest => (fit r, { s with srcIn := rest })
  | [] =>
    (if Config.freeSrcOk s.free then .ok ((List.range s.rom.nDec).map (Config.freeSample s.free)) else .err,
      { s with free := s.free + 1 })

/-- `SnkPush(buf)` (R13, R68): true for `Ok`; the sink's next reply, or either reply where none is listed (log 6). -/
def snkPush (buf : List Sample) (s : State) : Bool × State :=
  match s.snkIn with
  | r :: rest => (r, { s with snkIn := rest, snkOut := s.snkOut ++ [{ buf := buf, ok := r }] })
  | [] =>
    (Config.freeSnkOk s.free,
      { s with snkOut := s.snkOut ++ [{ buf := buf, ok := Config.freeSnkOk s.free }], free := s.free + 1 })

/-- NOW advanced by d milliseconds: u64, never decreasing (R43, R70; log 7). -/
def advance (now : BitVec 64) (d : Nat) : BitVec 64 :=
  if now.toNat + d < 2 ^ 64 then BitVec.ofNat 64 (now.toNat + d) else BitVec.allOnes 64

/-- A turn of CLK (R43): by the next listed amount, or by any amount where none is listed (log 7). -/
def clkTurn (s : State) : State :=
  match s.clkIn with
  | d :: rest => { s with now := advance s.now d, clkIn := rest }
  | [] => { s with now := advance s.now (Config.freeTick s.free), free := s.free + 1 }

/-! ### Results and errors -/

/-- The response of a host operation (R41, R93): RES_CODE and RES_BUF. -/
def respond (e : ErrCode) (buf : List Byte) (s : State) : State := { s with resCode := e, resBuf := buf }

/-- Delivery of a synchronous error (R322, R93): the code is the operation's response, with no payload; there is no vector,
no saved program counter and no mode to change, and nothing else of the state changes. -/
def deliverError (e : ErrCode) (s : State) : State := respond e [] s

/-- What LERR becomes when an error register is written with e: the code, if it is non-zero (R40, R323). -/
def lerrAfter (e old : ErrCode) : ErrCode := if e = .ok then old else e

/-- Write ENC_ERR (R323). -/
def setEncErr (e : ErrCode) (s : State) : State :=
  { s with enc := { s.enc with err := e }, lerr := lerrAfter e s.lerr }

/-- Write DEC_ERR (R323). -/
def setDecErr (e : ErrCode) (s : State) : State :=
  { s with dec := { s.dec with err := e }, lerr := lerrAfter e s.lerr }

/-- Write M_ERR (R323). -/
def setMErr (e : ErrCode) (s : State) : State :=
  { s with mst := { s.mst with err := e }, lerr := lerrAfter e s.lerr }

/-- The first check that fails (R324). -/
def firstError : List (Option ErrCode) → ErrCode
  | [] => .ok
  | none :: rest => firstError rest
  | some e :: _ => e

/-- A host operation (R324): the packet's form, then the checks in their order, then its effect. A refused operation
changes nothing but its response (R321, R322). -/
def hostOp (form : Bool) (checks : List (Option ErrCode)) (body : State → State) (s : State) : State :=
  if form then
    if firstError checks = .ok then body s else deliverError (firstError checks) s
  else deliverError .badPacket s

/-! ### The checks of R324, each `none` when it passes -/

/-- (3) `NotConfigured` (R321, R316). -/
def needCfg (s : State) : Option ErrCode := if s.cfgValid then none else some .notConfigured

/-- (3) for CFG: `AlreadyConfigured` (R24, R321). -/
def needNoCfg (s : State) : Option ErrCode := if s.cfgValid then some .alreadyConfigured else none

/-- (4) `WrongRole` (R317, R321). -/
def needRole (r : Role) (s : State) : Option ErrCode := if s.cfg.role = r then none else some .wrongRole

/-- (5) `WrongMode` (R321). -/
def needMode (m : Mode) (s : State) : Option ErrCode := if s.cfg.mode = m then none else some .wrongMode

/-- (6) `DecoderUnavailable` (R190, R321). -/
def needDecoder (s : State) : Option ErrCode :=
  if s.cfg.nfftValid && s.cfg.thrValid then none else some .decoderUnavailable

/-- (7) `Busy` of the encoder operations (R172, R321). -/
def needEncIdle (s : State) : Option ErrCode := if s.enc.phase = .idle then none else some .busy

/-- (7) `Busy` of DEC.START (R190, R321). -/
def needDecDead (s : State) : Option ErrCode := if s.dec.alive then some .busy else none

/-- (7) `Busy` of M.SEND and M.SENDBC: the queue has depth one (R261). -/
def needMasterFree (s : State) : Option ErrCode :=
  if s.mst.pend = none ∧ s.mst.state = .idle ∧ s.mst.stopReq = false then none else some .busy

/-! ### Reset -/

/-- The reset transition (R350, R313): every register takes its reset value; EVT, NOW, what crossed the sink and what the
environment has still to offer are not touched (R351), nor are the device's parameters (R9). -/
def resetRegs (s : State) : State :=
  { State.resetWith s.params s.free with
    evt := s.evt
    snkOut := s.snkOut
    now := s.now
    sched := s.sched
    hostIn := s.hostIn
    srcIn := s.srcIn
    snkIn := s.snkIn
    clkIn := s.clkIn }

end Sys2Proof.Machine
end

