-- ==== Sys2Proof/Machine/Flags.lean ====
section
/-! DEFINITION. The STATUS word (spec/10_state.md R40) and the one-bit conditions of spec/10_state.md R47 that an audio
frame's decode computes (spec/43_spectral_demodulator.md R202, R204). -/

namespace Sys2Proof.Machine

/-- STATUS.ROLE (R40): 0 while unconfigured, since all fields read as 0 after reset and ROLE is then unreadable (log 12). -/
def statusRole (s : State) : BitVec 2 :=
  if s.cfgValid then
    match s.cfg.role with
    | .standalone => 0
    | .master => 1
    | .slave => 2
  else 0

/-- STATUS.MST (R40): 0 when ROLE ≠ Master (log 12). -/
def statusMst (s : State) : BitVec 2 :=
  if s.cfgValid ∧ s.cfg.role = .master then
    match s.mst.state with
    | .idle => 0
    | .sending => 1
    | .awaitingResponse => 2
  else 0

/-- STATUS.SST (R40): 0 when ROLE ≠ Slave (log 12). -/
def statusSst (s : State) : Bool := decide (s.cfgValid ∧ s.cfg.role = .slave ∧ s.slv.state = .receiving)

/-- A one-bit field of STATUS. -/
def statusBit (b : Bool) : BitVec 1 := BitVec.ofBool b

/-- STATUS (R40), most significant field first: reserved, LERR, HSF, SRUN, SST, MPND, MST, ROLE, ROVF, DIOE, DED, EOT,
DALV, DRUN, ENCB, CFGV. -/
def status (s : State) : BitVec 32 :=
  (0 : BitVec 8) ++ errCode s.lerr ++ statusBit s.hslot.isSome ++ statusBit s.slv.run ++ statusBit (statusSst s)
    ++ statusBit s.mst.pend.isSome ++ statusMst s ++ statusRole s ++ statusBit s.dec.ovf
    ++ statusBit (s.dec.err == .ioError) ++ statusBit s.dec.ded ++ statusBit s.dec.eot ++ statusBit s.dec.alive
    ++ statusBit s.dec.run ++ statusBit (s.enc.phase == .transmitting) ++ statusBit s.cfgValid

/-- OLD[i] (R31); 0 is "no value" and what an index beyond the list reads as (log 11). -/
def oldAt (old : List Rat) (i : Nat) : Rat := old.getD i 0

/-- CHANGED[i] (R202): the detected value differs from OLD[i] by more than DELTA_F. -/
def changedAt (deltaF : Rat) (new old : List Rat) (i : Nat) : Bool :=
  decide (deltaF < |new.getD i 0 - oldAt old i|)

/-- ANY_CHANGED (R202), over n channels. -/
def anyChanged (n : Nat) (deltaF : Rat) (new old : List Rat) : Bool := (List.range n).any (changedAt deltaF new old)

/-- HAD_ZERO (R202), over n channels: some channel had no value in OLD. -/
def hadZero (n : Nat) (old : List Rat) : Bool := (List.range n).any fun i => decide (oldAt old i = 0)

/-- ALL_FOUND (R201): every channel's peak exceeded the threshold. -/
def allFound (det : List (Option Rat)) : Bool := det.all Option.isSome

/-- NEW[i] (R201): the detected frequency, 0 where none was found. -/
def newVals (det : List (Option Rat)) : List Rat := det.map fun d => d.getD 0

end Sys2Proof.Machine
end

