-- ==== Sys2Proof/Machine/Numerics.lean ====
section
/-! DEFINITION. What CFG computes: the channel table, derived lengths and bin ranges of spec/10_state.md R25 to R27, the
tone ROM, calibration buffer and window of spec/42_tone_modulator.md R161 to R166 and spec/43_spectral_demodulator.md
R197, and the validity checks of spec/46_system.md R311. All numbers are rationals; `sin`, `cos` and `pi` are the numerics
record of spec/00_scope.md R14. -/

namespace Sys2Proof.Machine

/-! ### The numerics record (R14; log 8) -/

/-- `Num.sin`: any function with `sin(0) = 0` and values in [−1, 1] (R14; log 8). -/
def numSin (x : Rat) : Rat := if x = 0 then 0 else max (-1) (min 1 (Config.numSin x))

/-- `Num.cos`: any function with `cos(0) = 1` and values in [−1, 1] (R14; log 8). -/
def numCos (x : Rat) : Rat := if x = 0 then 1 else max (-1) (min 1 (Config.numCos x))

/-- `Num.pi` (R14; log 8). -/
def numPi : Rat := Config.numPi

/-- `trunc` (R10): the integer part toward zero. -/
def trunc (x : Rat) : Int := if 0 ≤ x then x.floor else x.ceil

/-- `q16` (R165). -/
def q16 (x : Rat) : Sample := BitVec.ofInt 16 (max (-32768) (min 32767 (trunc (32767 * x))))

/-! ### Channel table and lengths -/

/-- LOW[i] (R25). -/
def lowFreq (c : CfgRegs) (i : Nat) : Rat := c.firstFreq + i * 2 * c.freqStep

/-- HIGH[i] (R25). -/
def highFreq (c : CfgRegs) (i : Nat) : Rat := c.firstFreq + c.freqStep + i * 2 * c.freqStep

/-- N_ENC (R26). -/
def lenEnc (c : CfgRegs) : Nat := ((c.tOnePulse + c.tBreak) * c.sampleRate).ceil.toNat

/-- N_DEC, and N_ACT (R26). -/
def lenDec (c : CfgRegs) : Nat := (c.tOnePulse * c.sampleRate).ceil.toNat

/-- N_BRK (R26). -/
def lenBrk (c : CfgRegs) : Nat := (c.tBreak * c.sampleRate / 2).floor.toNat

/-- N_TAIL (R26). -/
def lenTail (c : CfgRegs) : Nat := lenEnc c - lenBrk c - lenDec c

/-- L_FADE (R26). -/
def lenFade (c : CfgRegs) : Nat := (c.fadeLength * lenDec c).floor.toNat

/-- DELTA_F (R26). -/
def deltaF (c : CfgRegs) : Rat := c.sampleRate / c.nfft

/-- K_LO[i] (R27). -/
def binLo (c : CfgRegs) (i : Nat) : Nat := ((lowFreq c i - deltaF c) / deltaF c).ceil.toNat

/-- K_HI[i] (R27). -/
def binHi (c : CfgRegs) (i : Nat) : Nat := ((highFreq c i + deltaF c) / deltaF c).floor.toNat

/-! ### Tone ROM and calibration buffer -/

/-- `freq(i, b)` (R161). -/
def freq (c : CfgRegs) (i : Nat) (b : Bool) : Rat := if b then highFreq c i else lowFreq c i

/-- The fade envelope (R163). -/
def envelope (fade nAct j : Nat) : Rat :=
  if fade = 0 then 1 else min 1 (min ((j : Rat) / fade) (((nAct : Rat) - 1 - j) / fade))

/-- Sample k of a tone buffer at frequency f (R162, R164). -/
def toneSample (c : CfgRegs) (f : Rat) (k : Nat) : Rat :=
  if lenBrk c ≤ k ∧ k < lenBrk c + lenDec c then
    envelope (lenFade c) (lenDec c) (k - lenBrk c)
      * numSin (2 * numPi * f * ((k - lenBrk c : Nat) : Rat) / c.sampleRate)
  else 0

/-- A tone buffer of N_ENC samples (R160, R162). -/
def toneBuffer (c : CfgRegs) (f : Rat) : List Rat := (List.range (lenEnc c)).map (toneSample c f)

/-- TONE (R160): per channel the buffers of bit 0 and bit 1. -/
def toneRom (c : CfgRegs) : List (List Rat × List Rat) :=
  (List.range c.nCh).map fun i => (toneBuffer c (freq c i false), toneBuffer c (freq c i true))

/-- CAL (R166), for a calibration tone of the given frequency. -/
def calBuffer (calFreq : Rat) (c : CfgRegs) : List Sample := (toneBuffer c calFreq).map q16

/-- WIN[k] (R197). -/
def windowSample (n k : Nat) : Rat :=
  if n = 1 then 1 else 54 / 100 - 46 / 100 * numCos (2 * numPi * k / ((n : Rat) - 1))

/-- WIN (R197). -/
def windowRom (c : CfgRegs) : List Rat := (List.range (lenDec c)).map (windowSample (lenDec c))

/-- Everything CFG computes (R312), in the registers of R25 to R28; what is computed only when NFFT was given keeps its
earlier value otherwise (log 22). -/
def deriveRom (p : Params) (c : CfgRegs) (old : Rom) : Rom :=
  { low := (List.range c.nCh).map (lowFreq c)
    high := (List.range c.nCh).map (highFreq c)
    nEnc := lenEnc c
    nDec := lenDec c
    nAct := lenDec c
    nBrk := lenBrk c
    nTail := lenTail c
    lFade := lenFade c
    deltaF := if c.nfftValid then deltaF c else old.deltaF
    kLo := if c.nfftValid then (List.range c.nCh).map (binLo c) else old.kLo
    kHi := if c.nfftValid then (List.range c.nCh).map (binHi c) else old.kHi
    bLo := if c.nfftValid then binLo c 0 else old.bLo
    bHi := if c.nfftValid then binHi c (c.nCh - 1) else old.bHi
    tone := toneRom c
    cal := calBuffer p.calFreq c
    win := if c.nfftValid then windowRom c else old.win }

/-! ### Validation (R311) -/

/-- The checks of R311 that speak of the registers alone: 1 to 3, 5 to 8, 10, and 9 for a slave's address. -/
def cfgRegsOk (chMax : Nat) (c : CfgRegs) : Bool :=
  decide (0 < c.sampleRate)
    && (isPow2 c.nCh && decide (1 ≤ c.nCh ∧ c.nCh ≤ chMax))
    && decide (0 < c.firstFreq ∧ 0 < c.freqStep)
    && decide (1 ≤ lenDec c ∧ lenEnc c < 2 ^ 31)
    && (!c.nfftValid || isPow2 c.nfft)
    && (!c.nfftValid || decide (lenDec c ≤ c.nfft))
    && (!c.nfftValid || decide (2 ≤ binLo c 0 ∧ 2 * binHi c (c.nCh - 1) ≤ c.nfft))
    && (c.role != .slave || decide (0x01 ≤ c.devAddr.toNat ∧ c.devAddr.toNat ≤ 0xFE))
    && (c.role == .standalone || (c.mode == .dataFrame && c.nfftValid && c.thrValid))

/-- All ten checks of R311 on a record: check 4 on its fractions, the others on the registers it asks for. -/
def cfgValidRecord (chMax : Nat) (p : List Byte) (old : CfgRegs) : Bool :=
  recFractionsOk p && cfgRegsOk chMax (recRegs p old)

end Sys2Proof.Machine
end

