-- ==== Sys2Proof/Machine/Decoder.lean ====
section
/-! DEFINITION. The spectral demodulator (spec/43_spectral_demodulator.md): control R190, R191; the loop R193 to R195; the
per-frame decode R196 to R208; decode cycle and accumulation R209 to R215; read-out R216, R217. -/

namespace Sys2Proof.Machine

/-! ### Control -/

/-- `decStart` (R190). -/
def startDecoder (s : State) : State :=
  { s with
    dec := { s.dec with
      old := List.replicate s.cfg.nCh 0
      raw := [], msg := [], rxHex := [], rxBytes := []
      eot := false, ded := false, ovf := false, err := .ok
      phase := .top, run := true, alive := true }
    hslot := none }

/-- `decStop` (R191): a request; the loop observes it at its next top. -/
def stopDecoder (s : State) : State := { s with dec := { s.dec with run := false } }

/-- DEC.START (R190). -/
def execDecStart (o : Operands) (s : State) : Host.Outcome State Fault Refusal :=
  .next (hostOp (formPlain o) [needCfg s, needRole .standalone s, needDecoder s, needDecDead s]
    (fun s => respond .ok [] (startDecoder s)) s)

/-- DEC.STOP (R191). -/
def execDecStop (o : Operands) (s : State) : Host.Outcome State Fault Refusal :=
  .next (hostOp (formPlain o) [needCfg s, needRole .standalone s] (fun s => respond .ok [] (stopDecoder s)) s)

/-! ### Steps 1 to 4 of the per-frame decode: from samples to detected values -/

/-- x[k] (R198, R199): normalised, windowed, zero beyond N_DEC. -/
def windowed (rom : Rom) (frame : List Sample) (k : Nat) : Rat :=
  if k < rom.nDec then ((frame.getD k 0).toInt : Rat) / 32768 * memRead rom.win k else 0

/-- The real part of bin m (R200). -/
def dftRe (nfft : Nat) (x : Nat → Rat) (m : Nat) : Rat :=
  ((List.range nfft).map fun k => x k * numCos (2 * numPi * m * k / nfft)).sum

/-- The imaginary part of bin m (R200). -/
def dftIm (nfft : Nat) (x : Nat → Rat) (m : Nat) : Rat :=
  -((List.range nfft).map fun k => x k * numSin (2 * numPi * m * k / nfft)).sum

/-- P[m] (R200). -/
def binPower (c : CfgRegs) (rom : Rom) (frame : List Sample) (m : Nat) : Rat :=
  let re := dftRe c.nfft (windowed rom frame) m
  let im := dftIm c.nfft (windowed rom frame) m
  re * re + im * im

/-- The least bin of greatest power among `count + 1` bins from `lo` (R201). -/
def peakBin (p : Nat → Rat) (lo : Nat) : Nat → Nat
  | 0 => lo
  | count + 1 =>
    let m := peakBin p lo count
    if p m < p (lo + (count + 1)) then lo + (count + 1) else m

/-- The detected value of a channel whose window is the bins lo..hi (R201): the frequency of the peak bin if its power
exceeds the threshold, else none. -/
def detectChannel (p : Nat → Rat) (threshold delta : Rat) (lo hi : Nat) : Option Rat :=
  let m := peakBin p lo (hi - lo)
  if threshold < p m then some (m * delta) else none

/-- Steps 1 to 4 for every channel (R198 to R201). -/
def detectFrame (c : CfgRegs) (rom : Rom) (frame : List Sample) : List (Option Rat) :=
  (List.range c.nCh).map fun i =>
    detectChannel (binPower c rom frame) c.threshold rom.deltaF (rom.kLo.getD i 0) (rom.kHi.getD i 0)

/-! ### Message accumulation -/

/-- Append a group to MSG; an append beyond 8·RX_MAX bits is dropped (R209, R214; log 17). -/
def appendMsg (rxMax : Nat) (d : List Bool) (r : DecRegs) : DecRegs :=
  if r.msg.length + d.length ≤ 8 * rxMax then { r with msg := r.msg ++ d } else { r with ovf := true }

/-- New data, Simple mode (R211, R214; log 17). -/
def newDataSimple (rxMax : Nat) (d : List Bool) (r : DecRegs) : DecRegs :=
  if r.rxHex.length + (bin2hex d).length ≤ rxMax then { r with rxHex := r.rxHex ++ bin2hex d }
  else { r with ovf := true }

/-- One decoded byte, DataFrame mode (R212, R214): dropped after an EOT; an EOT dropped for want of room still sets
EOT_FLAG. -/
def newByte (rxMax : Nat) (r : DecRegs) (b : Byte) : DecRegs :=
  if r.eot then r
  else if r.rxBytes.length < rxMax then { r with rxBytes := r.rxBytes ++ [b], eot := b == EOT }
  else { r with ovf := true, eot := b == EOT }

/-- New data, DataFrame mode (R212). -/
def newDataFrame (rxMax : Nat) (d : List Bool) (r : DecRegs) : DecRegs := (bits2bytes d).foldl (newByte rxMax) r

/-- `newData` (R209). -/
def newData (rxMax : Nat) (m : Mode) (d : List Bool) (r : DecRegs) : DecRegs :=
  match m with
  | .simple => newDataSimple rxMax d r
  | .dataFrame => newDataFrame rxMax d r

/-- The decoded bits of a cycle: by FEC with SECDED, else as they are (R209). -/
def cycleBits (c : CfgRegs) (raw : List Bool) : Option (List Bool) := if c.secdedEn then fecDecStream raw else some raw

/-- What a double-bit error discards (R210). -/
def discardBuffers (r : DecRegs) : DecRegs :=
  { r with raw := [], msg := [], rxHex := [], rxBytes := [], eot := false, ded := true }

/-- The condition of a decode cycle (R209). -/
def cycleDue (n : Nat) (raw : List Bool) : Bool := !raw.isEmpty && raw.length % n == 0 && raw.length % 16 == 0

/-- The decode cycle, when it is due (R209, R210). -/
def decodeCycle (s : State) : State :=
  if cycleDue s.cfg.nCh s.dec.raw then
    match cycleBits s.cfg s.dec.raw with
    | some d => { s with dec := newData s.params.rxMax s.cfg.mode d (appendMsg s.params.rxMax d { s.dec with raw := [] }) }
    | none => emit (.logDecodeError .doubleErrorDetected) { s with dec := discardBuffers s.dec }
  else s

/-! ### Steps 5 to 8 of the per-frame decode -/

/-- A detected frequency as a bit (R207): within DELTA_F of LOW is 0, tested first, within DELTA_F of HIGH is 1. -/
def sliceBit (delta low high f : Rat) : Option Bool :=
  if |f - low| ≤ delta then some false else if |f - high| ≤ delta then some true else none

/-- The bits of a slot, channel 0 first; `none` aborts the slot (R207). -/
def sliceSlot (s : State) (new : List Rat) : Option (List Bool) :=
  (List.range s.cfg.nCh).mapM fun i =>
    sliceBit s.rom.deltaF (s.rom.low.getD i 0) (s.rom.high.getD i 0) (new.getD i 0)

/-- The condition of a read event, on OLD as it stands before this frame (R202, R204). -/
def readEvent (s : State) (det : List (Option Rat)) : Bool :=
  allFound det && anyChanged s.cfg.nCh s.rom.deltaF (newVals det) s.dec.old && hadZero s.cfg.nCh s.dec.old

/-- OLD after a frame (R203). -/
def updateOld (s : State) (det : List (Option Rat)) : State :=
  if anyChanged s.cfg.nCh s.rom.deltaF (newVals det) s.dec.old then
    { s with dec := { s.dec with old := newVals det } }
  else s

/-- An accepted slot's bits join RAW and the decode cycle runs if due (R207, R208); an aborted slot changes nothing. -/
def acceptSlot (slot : Option (List Bool)) (s : State) : State :=
  match slot with
  | some bits => decodeCycle { s with dec := { s.dec with raw := s.dec.raw ++ bits } }
  | none => s

/-- Steps 5 to 8 (R202 to R208), for the detected values of a frame. -/
def trackFrame (det : List (Option Rat)) (s : State) : State :=
  if readEvent s det then acceptSlot (sliceSlot s (newVals det)) (updateOld s det) else updateOld s det

/-- `decodeFrame` (R196). -/
def decodeAudio (s : State) : State := trackFrame (detectFrame s.cfg s.rom s.dec.frameBuf) s

/-! ### The agent DEC -/

/-- `decEot` (R213). -/
def decEot (s : State) : State :=
  { s with dec := { s.dec with run := false, alive := false }, hslot := some (.bytes s.dec.rxBytes) }

/-- `decSrcErr` (R215). -/
def decSrcErr (s : State) : State :=
  let s := setDecErr .ioError s
  emit (.logIoError false)
    { s with dec := { s.dec with run := false, alive := false }, hslot := some .sourceError }

/-- `decTop` after the pull was answered (R193). -/
def decPulled (r : SrcReply) (s : State) : State :=
  match r with
  | .ok samples => { s with dec := { s.dec with frameBuf := samples, phase := .haveFrame } }
  | .err => decSrcErr s

/-- `decTop` (R193). -/
def decTop (s : State) : State :=
  if s.dec.run = false then { s with dec := { s.dec with alive := false } }
  else
    let r := srcPull s
    decPulled r.1 r.2

/-- Back to the loop's top (R195). FRAME_BUF is unspecified from here until the next pull (U5, R30): it holds a free value
then, and every step that leaves DEC_PHASE = Top leaves it as it is (log 9). -/
def backToTop (s : State) : State :=
  { s with
    dec := { s.dec with phase := .top, frameBuf := Config.unspecifiedFrameBuf s.free }
    free := s.free + 1 }

/-- The end of `decBody` (R195): back to the top, and the loop ends itself on an end of transmission. -/
def bodyEnd (s : State) : State :=
  let s := backToTop s
  if s.cfg.mode = .dataFrame ∧ s.dec.eot = true then decEot s else s

/-- `decBody` (R195). -/
def decBody (s : State) : State := bodyEnd (decodeAudio s)

/-- A turn of DEC: enabled when DEC_ALIVE = 1 (R192; log 3). -/
def decTurn (s : State) : State :=
  if s.dec.alive then
    match s.dec.phase with
    | .top => decTop s
    | .haveFrame => decBody s
  else s

/-! ### Reading the result -/

/-- DEC.RDHEX (R216). -/
def execDecRdhex (o : Operands) (s : State) : Host.Outcome State Fault Refusal :=
  .next (hostOp (formPlain o) [needCfg s, needMode .simple s] (fun s => respond .ok s.dec.rxHex s) s)

/-- The status byte of DEC.RDFRM (R99): bit 0 EOT_FLAG, bit 1 a source error taken from HSLOT. -/
def rdfrmStatus (s : State) : Byte :=
  (0 : BitVec 6) ++ statusBit (s.hslot == some .sourceError) ++ statusBit s.dec.eot

/-- DEC.RDFRM (R217): the status byte and RX_BYTES; the handoff slot is taken. -/
def execDecRdfrm (o : Operands) (s : State) : Host.Outcome State Fault Refusal :=
  .next (hostOp (formPlain o) [needCfg s, needRole .standalone s, needMode .dataFrame s]
    (fun s => respond .ok (rdfrmStatus s :: s.dec.rxBytes) { s with hslot := none }) s)

end Sys2Proof.Machine
end

