-- ==== Sys2Proof/Machine/Encoder.lean ====
section
/-! DEFINITION. The tone modulator (spec/42_tone_modulator.md): loading a payload R170, R171; the run's start R173 to R176;
the steps of the agent ENC R177 to R180. -/

namespace Sys2Proof.Machine

/-! ### Loading -/

/-- ENC.LDHEX (R170, refusals R172). -/
def execEncLdhex (o : Operands) (s : State) : Host.Outcome State Fault Refusal :=
  .next (hostOp (formHex s.params.hexMax o) [needCfg s, needRole .standalone s, needMode .simple s, needEncIdle s]
    (fun s => respond .ok [] { s with enc := { s.enc with hex := some o.payload } }) s)

/-- Build a Frame into ENC_FRM, or report the build error and leave ENC_FRM as it is (R171). -/
def loadFrame (r : Except ErrCode Frame) (s : State) : State :=
  match r with
  | .ok f => respond .ok [] { s with enc := { s.enc with frm := some f } }
  | .error e => deliverError e s

/-- ENC.LDFRM (R171, refusals R172). -/
def execEncLdfrm (o : Operands) (s : State) : Host.Outcome State Fault Refusal :=
  .next (hostOp (formCmdData o) [needCfg s, needRole .standalone s, needMode .dataFrame s, needEncIdle s]
    (loadFrame (frmBuild s.cfg.nCh o.a (opCmd o) (opData o))) s)

/-! ### The run -/

/-- The factor k of R128 and R173: 2 with SECDED, else 1. -/
def codeFactor (c : CfgRegs) : Nat := if c.secdedEn then 2 else 1

/-- The bitstream before coding (R174, R175). -/
def rawBits (c : CfgRegs) (e : EncRegs) : Except ErrCode (List Bool) :=
  match c.mode with
  | .simple =>
    match hex2bin (e.hex.getD []) with
    | .ok str => .ok (padBits (binArrayFromBinStr str) c.nCh (codeFactor c))
    | .error err => .error err
  | .dataFrame =>
    match e.frm with
    | some f => .ok (bytes2bits (frmSerialize f))
    | none => .error .noPending

/-- FEC and slot filling (R176). -/
def codeBits (c : CfgRegs) (bits : List Bool) : List Bool :=
  fillSlot (if c.secdedEn then fecEncStream bits else bits) c.nCh

/-- `encStart` (R173): the coded bitstream is put into ENC_BITS and the run begins; on InvalidHexData and on NoPending
ENC_ERR is written, `LogSendFailed` emitted and nothing else changed (of NoPending against R321: log 16). The first component
is the error, `ok` when the run began. -/
def encStart (s : State) : ErrCode × State :=
  match rawBits s.cfg s.enc with
  | .ok bits =>
    (.ok, { s with enc := { s.enc with
      bits := codeBits s.cfg bits, slot := 0, err := .ok, phase := .transmitting } })
  | .error e => (e, emit (.logSendFailed e) (setEncErr e s))

/-- The host's part of ENC.RUN: when the run begins HOST waits for its end (R81, R93; log 14), else it gets the error. -/
def hostRun (s : State) : State :=
  let r := encStart s
  if r.1 = .ok then { r.2 with hostWait := true } else deliverError r.1 r.2

/-- ENC.RUN (R173, refusals R172). -/
def execEncRun (o : Operands) (s : State) : Host.Outcome State Fault Refusal :=
  .next (hostOp (formPlain o) [needCfg s, needRole .standalone s, needEncIdle s] hostRun s)

/-! ### The agent ENC -/

/-- S, the number of slots of the run (R176). -/
def slotCount (s : State) : Nat := s.enc.bits.length / s.cfg.nCh

/-- The sample of channel i for the bit it carries in slot t (R63, R177). -/
def laneSample (s : State) (t k i : Nat) : Rat :=
  let buffers := s.rom.tone.getD i ([], [])
  memRead (if s.enc.bits.getD (t * s.cfg.nCh + i) false then buffers.2 else buffers.1) k

/-- The sum of the lanes of slot t at sample k (R177). -/
def mixSum (s : State) (t k : Nat) : Rat := ((List.range s.cfg.nCh).map (laneSample s t k)).sum

/-- `mixSlot` (R177). -/
def mixSlot (s : State) (t : Nat) : List Sample :=
  (List.range s.rom.nEnc).map fun k => q16 (mixSum s t k / s.cfg.nCh)

/-- The buffer of the next push (R178): the calibration buffer first and last, the slots between. -/
def encBuffer (s : State) : List Sample :=
  if s.enc.slot = 0 then s.rom.cal
  else if s.enc.slot ≤ slotCount s then mixSlot s (s.enc.slot - 1)
  else s.rom.cal

/-- Release of the caller of the run (R179, R180): a blocked HOST gets the response; MASTER and SLAVE see ENC_PHASE. -/
def releaseHost (e : ErrCode) (s : State) : State :=
  if s.hostWait then { respond e [] s with hostWait := false } else s

/-- `encDone` (R179). -/
def encDone (s : State) : State :=
  releaseHost .ok { s with enc := { s.enc with phase := .idle, err := .ok } }

/-- `encFail` (R180). -/
def encFail (s : State) : State :=
  let s := setEncErr .ioError { s with enc := { s.enc with phase := .idle } }
  releaseHost .ioError (emit (.logSendFailed .ioError) (emit (.logIoError true) s))

/-- `encPush` after the push was answered (R178). -/
def encPushed (ok : Bool) (s : State) : State :=
  if ok = false then encFail s
  else if s.enc.slot = slotCount s + 1 then encDone s
  else { s with enc := { s.enc with slot := s.enc.slot + 1 } }

/-- `encPush` (R178). -/
def encPush (s : State) : State :=
  let r := snkPush (encBuffer s) s
  encPushed r.1 r.2

/-- A turn of ENC: enabled when ENC_PHASE = Transmitting (R178; log 3). -/
def encTurn (s : State) : State := if s.enc.phase = .transmitting then encPush s else s

end Sys2Proof.Machine
end

