-- ==== Sys2Proof/Machine/Master.lean ====
section
/-! DEFINITION. The master (spec/45_device_transport.md): host operations R261 to R265, guards R266, steps R267 to R276. -/

namespace Sys2Proof.Machine

/-! ### Host operations -/

/-- Queue an action (R261, R262). -/
def queueAction (a : Action) (s : State) : State := respond .ok [] { s with mst := { s.mst with pend := some a } }

/-- M.SEND (R261): an action to the address 0xFF is a broadcast. -/
def execMSend (o : Operands) (s : State) : Host.Outcome State Fault Refusal :=
  .next (hostOp (formCmdData o) [needCfg s, needRole .master s, needMasterFree s]
    (queueAction { addr := o.a, cmd := opCmd o, data := opData o, bc := o.a == BROADCAST }) s)

/-- M.SENDBC (R262). -/
def execMSendbc (o : Operands) (s : State) : Host.Outcome State Fault Refusal :=
  .next (hostOp (formBroadcast o) [needCfg s, needRole .master s, needMasterFree s]
    (queueAction { addr := BROADCAST, cmd := opCmd o, data := opData o, bc := true }) s)

/-- `isIdle()` (R263): no pending and no in-flight action. -/
def masterIdle (s : State) : Bool := decide (s.mst.state = .idle ∧ s.mst.pend = none)

/-- M.IDLE (R263). -/
def execMIdle (o : Operands) (s : State) : Host.Outcome State Fault Refusal :=
  .next (hostOp (formPlain o) [needCfg s, needRole .master s]
    (fun s => respond .ok [if masterIdle s then 0x01 else 0x00] s) s)

/-- M.STOP (R265). -/
def execMStop (o : Operands) (s : State) : Host.Outcome State Fault Refusal :=
  .next (hostOp (formPlain o) [needCfg s, needRole .master s]
    (fun s => respond .ok [] { s with mst := { s.mst with stopReq := true } }) s)

/-- M.SETTO (R264). -/
def execMSetto (o : Operands) (s : State) : Host.Outcome State Fault Refusal :=
  .next (hostOp (formTimeout o) [needCfg s, needRole .master s]
    (fun s => respond .ok [] { s with timeoutMs := opU32 o }) s)

/-! ### Shared ends of an attempt -/

/-- M_RETRIES + 1, saturating (R275). -/
def nextRetries (r : BitVec 32) : BitVec 32 := if r = BitVec.allOnes 32 then r else r + 1

/-- `mRetry` (R275): the action is transmitted again, without end (R277). -/
def mRetry (s : State) : State :=
  emit (.logRetry (nextRetries s.mst.retries))
    { s with mst := { s.mst with retries := nextRetries s.mst.retries, state := .sending } }

/-- `mAbandon` (R276). -/
def mAbandon (s : State) : State :=
  { s with mst := { s.mst with state := .idle, pend := none, stopReq := false } }

/-! ### The steps (R266) -/

/-- m1 (R267): a stop while idle drops the queued action. -/
def m1 (s : State) : State := { s with mst := { s.mst with pend := none, stopReq := false } }

/-- m2 (R267): the queued action is picked up; M_ERR is cleared. -/
def m2 (s : State) : State :=
  { s with mst := { s.mst with last := s.mst.pend, pend := none, retries := 0, err := .ok, state := .sending } }

/-- m3 (R268): a stop before transmitting. -/
def m3 (s : State) : State := mAbandon s

/-- m4 after the build (R268): a build error is fatal to the send, a Frame is transmitted. -/
def mTransmit (r : Except ErrCode Frame) (s : State) : State :=
  match r with
  | .error e =>
    let s := emit (.logSendFailed e) (setMErr e s)
    { s with mst := { s.mst with state := .idle } }
  | .ok f =>
    let s := (encStart { s with enc := { s.enc with frm := some f } }).2
    { s with mst := { s.mst with txWait := true } }

/-- m4 (R268): the Frame is built afresh from M_LAST. M_LAST holds an action whenever M_STATE = Sending; in a state where
it does not, nothing is built (log 23). -/
def m4 (s : State) : State :=
  match s.mst.last with
  | some act => mTransmit (frmBuild s.cfg.nCh act.addr act.cmd act.data) s
  | none => s

/-- m5 after a transmission that succeeded (R269): a broadcast is over, a unicast awaits its response. -/
def mSent (act : Action) (s : State) : State :=
  let s := emit (.logFrameSent act.addr act.cmd) s
  if act.bc then { s with mst := { s.mst with state := .idle } }
  else
    let s := startDecoder s
    { s with mst := { s.mst with t0 := s.now, tmo := false, state := .awaitingResponse } }

/-- m5 (R269); without an action in M_LAST, which no run reaches, only M_TXWAIT is cleared (log 23). -/
def m5 (s : State) : State :=
  let s := { s with mst := { s.mst with txWait := false } }
  if s.enc.err = .ioError then mRetry s
  else
    match s.mst.last with
    | some act => mSent act s
    | none => s

/-- m6 when the reception gives no Frame (R271): the parser's verdict is reported and the action retried. -/
def mNoFrame (pr : ParserResult) (ac : AddrCheck) (s : State) : State := mRetry (emit (.logParseResult pr ac) s)

/-- m7 (R274). -/
def m7 (s : State) : State :=
  let s := stopDecoder s
  { s with mst := { s.mst with tmo := true } }

/-- m8 (R272). -/
def m8 (s : State) : State :=
  let s := stopDecoder s
  { s with mst := { s.mst with tmo := true } }

/-- m9 (R273): the decoder has exited; a result deposited after the stop request is discarded. -/
def m9 (s : State) : State :=
  let s := { s with hslot := none, mst := { s.mst with tmo := false } }
  if s.mst.stopReq then mAbandon s else mRetry (emit .onTransmissionTimedOut s)

/-! ### Guards -/

/-- The timeout has elapsed (R272): u64 milliseconds, never with TIMEOUT_MS = 0. -/
def timeoutElapsed (s : State) : Bool :=
  decide (s.timeoutMs ≠ 0 ∧ s.timeoutMs.toNat ≤ (s.now - s.mst.t0).toNat)

/-- The agent MASTER exists (R38, R350). -/
def isMaster (s : State) : Bool := decide (s.cfgValid ∧ s.cfg.role = .master)

/-- The master's steps (R266). -/
inductive MStep where
  | m1
  | m2
  | m3
  | m4
  | m5
  | m6
  | m7
  | m8
  | m9
  deriving DecidableEq, Repr

/-- The guards of R266, row by row. -/
def mGuard (s : State) : MStep → Bool
  | .m1 => decide (s.mst.state = .idle ∧ s.mst.stopReq = true)
  | .m2 => decide (s.mst.state = .idle ∧ s.mst.stopReq = false ∧ s.mst.pend.isSome)
  | .m3 => decide (s.mst.state = .sending ∧ s.mst.txWait = false ∧ s.mst.stopReq = true)
  | .m4 => decide (s.mst.state = .sending ∧ s.mst.txWait = false ∧ s.mst.stopReq = false)
  | .m5 => decide (s.mst.state = .sending ∧ s.mst.txWait = true ∧ s.enc.phase = .idle)
  | .m6 => decide (s.mst.state = .awaitingResponse ∧ s.mst.tmo = false ∧ s.hslot.isSome)
  | .m7 => decide (s.mst.state = .awaitingResponse ∧ s.mst.tmo = false ∧ s.hslot = none ∧ s.mst.stopReq = true)
  | .m8 =>
    decide (s.mst.state = .awaitingResponse ∧ s.mst.tmo = false ∧ s.hslot = none ∧ s.mst.stopReq = false)
      && timeoutElapsed s
  | .m9 => decide (s.mst.state = .awaitingResponse ∧ s.mst.tmo = true ∧ s.dec.alive = false)

/-- The step whose guard holds, if any (R266). -/
def mEnabled (s : State) : Option MStep :=
  [MStep.m1, .m2, .m3, .m4, .m5, .m6, .m7, .m8, .m9].find? (mGuard s)

end Sys2Proof.Machine
end

