-- ==== Sys2Proof/Machine/Slave.lean ====
section
/-! DEFINITION. The slave (spec/45_device_transport.md): host operations R282, R283, guards R285, steps R286 to R290. -/

namespace Sys2Proof.Machine

/-! ### Host operations -/

/-- S.START (R282). -/
def execSStart (o : Operands) (s : State) : Host.Outcome State Fault Refusal :=
  .next (hostOp (formPlain o) [needCfg s, needRole .slave s]
    (fun s => respond .ok [] { s with slv := { s.slv with run := true } }) s)

/-- S.STOP (R283). -/
def execSStop (o : Operands) (s : State) : Host.Outcome State Fault Refusal :=
  .next (hostOp (formPlain o) [needCfg s, needRole .slave s]
    (fun s => respond .ok [] { s with slv := { s.slv with run := false } }) s)

/-! ### The steps (R285) -/

/-- s1 (R286): the reply is a command-only Frame to the master, whose build cannot fail. -/
def s1 (s : State) : State :=
  match s.slv.reply with
  | some c =>
    let s := (encStart { s with enc := { s.enc with frm := some (cmdFrame MASTER_ADDR c) } }).2
    { s with slv := { s.slv with txWait := true } }
  | none => s

/-- s2 (R290). -/
def s2 (s : State) : State :=
  let s := startDecoder s
  { s with slv := { s.slv with state := .receiving } }

/-- s3 (R286): on a sink error the reply is dropped, not repeated. -/
def s3 (s : State) : State :=
  let s := if s.enc.err = .ok then emit (.logFrameSent MASTER_ADDR s.slv.reply) s else s
  { s with slv := { s.slv with txWait := false, reply := none } }

/-- s4 when the reception gives no Frame (R287): NAK where the address check was Ok and the result is not
OtherRecipient. -/
def sNoFrame (pr : ParserResult) (ac : AddrCheck) (s : State) : State :=
  let s := emit (.logParseResult pr ac) s
  { s with slv := { s.slv with
    reply := if pr ≠ .otherRecipient ∧ ac = .ok then some NAK else s.slv.reply
    state := .idle } }

/-- s4 on a source error (R287, R291): the slave listens again. -/
def sSourceError (s : State) : State := { s with slv := { s.slv with state := .idle } }

/-- s5 (R289). -/
def s5 (s : State) : State := stopDecoder s

/-- s6 (R289). -/
def s6 (s : State) : State := { s with slv := { s.slv with state := .idle } }

/-! ### Guards -/

/-- The agent SLAVE exists (R39, R350). -/
def isSlave (s : State) : Bool := decide (s.cfgValid ∧ s.cfg.role = .slave)

/-- The slave's steps (R285). -/
inductive SStep where
  | s1
  | s2
  | s3
  | s4
  | s5
  | s6
  deriving DecidableEq, Repr

/-- The guards of R285, row by row. -/
def sGuard (s : State) : SStep → Bool
  | .s1 => decide (s.slv.state = .idle ∧ s.slv.txWait = false ∧ s.slv.reply.isSome)
  | .s2 => decide (s.slv.state = .idle ∧ s.slv.txWait = false ∧ s.slv.reply = none ∧ s.slv.run = true)
  | .s3 => decide (s.slv.state = .idle ∧ s.slv.txWait = true ∧ s.enc.phase = .idle)
  | .s4 => decide (s.slv.state = .receiving ∧ s.hslot.isSome)
  | .s5 => decide (s.slv.state = .receiving ∧ s.hslot = none ∧ s.slv.run = false ∧ s.dec.run = true)
  | .s6 => decide (s.slv.state = .receiving ∧ s.hslot = none ∧ s.dec.alive = false)

/-- The step whose guard holds, if any (R285). -/
def sEnabled (s : State) : Option SStep := [SStep.s1, .s2, .s3, .s4, .s5, .s6].find? (sGuard s)

end Sys2Proof.Machine
end

