-- ==== Sys2Proof/Machine/Control.lean ====
section
/-! DEFINITION. The classes of a received Frame's command byte (spec/30_encoding.md R113): what the receiving MASTER does
with a Frame that parses (spec/45_device_transport.md R271) and what the SLAVE does (R287). A device that is neither does
not act on them (log 18). -/

namespace Sys2Proof.Machine

/-- The parser's verdict on a well-formed Frame to `addr`, for a device with address `dev` (R240, R243). -/
def frameVerdict (addr dev : Byte) : ParserResult × AddrCheck :=
  if checkAddress addr (some dev) = .otherRecipient then (.otherRecipient, .otherRecipient)
  else (.parsingOk, checkAddress addr (some dev))

/-- m6 on a Frame (R271): an OtherRecipient verdict is a failure like any other. -/
def mReceive (addr : Byte) (accept : State → State) (s : State) : State :=
  let v := frameVerdict addr MASTER_ADDR
  if v.1 = .parsingOk then accept (emit (.logParseResult v.1 v.2) s) else mNoFrame v.1 v.2 s

/-- s4 on a Frame (R287): the callback, then ACK if the address check is Ok. -/
def sReceive (addr : Byte) (callback : Event) (s : State) : State :=
  let v := frameVerdict addr s.cfg.devAddr
  if v.1 = .parsingOk then
    let s := emit callback (emit (.logParseResult v.1 v.2) s)
    { s with slv := { s.slv with
      reply := if v.2 = .ok then some ACK else s.slv.reply
      state := .idle } }
  else sNoFrame v.1 v.2 s

/-- A received Frame is acted on by the transport agent the device has (R113; log 18). -/
def receive (addr : Byte) (accept : State → State) (callback : Event) (s : State) : State :=
  if isMaster s then mReceive addr accept s
  else if isSlave s then sReceive addr callback s
  else s

/-- The master accepts the response (R271). -/
def mConfirm (s : State) : State :=
  let s := emit .onTransmissionConfirmed (emit .logAckReceived s)
  { s with mst := { s.mst with state := .idle } }

/-- STX (R113): to the slave, data; to the master a reply that is no ACK. -/
def execStx (addr : Byte) (data : List Byte) (s : State) : Host.Outcome State Fault Refusal :=
  .next (receive addr mRetry (.onDataReceived data) s)

/-- ACK (R113): to the master, success; to the slave an ordinary command byte. -/
def execAck (addr : Byte) (s : State) : Host.Outcome State Fault Refusal :=
  .next (receive addr mConfirm (.onCommandReceived ACK) s)

/-- NAK (R113): to the master, a failure that is logged; to the slave an ordinary command byte. -/
def execNak (addr : Byte) (s : State) : Host.Outcome State Fault Refusal :=
  .next (receive addr (fun s => mRetry (emit .logNakReceived s)) (.onCommandReceived NAK) s)

/-- CMD.OTHER (R113): to the slave, a command byte; to the master a reply that is no ACK. -/
def execCmdOther (addr cmd : Byte) (s : State) : Host.Outcome State Fault Refusal :=
  .next (receive addr mRetry (.onCommandReceived cmd) s)

end Sys2Proof.Machine
end

