-- ==== Sys2Proof/Machine/Converters.lean ====
section
/-! DEFINITION. The converter operations (spec/40_converters.md R121 to R123). They read and write no state but the
response. -/

namespace Sys2Proof.Machine

/-- The response of a pure operation: its value or its error (R93, R322). -/
def answer (r : Except ErrCode (List Byte)) (s : State) : State :=
  match r with
  | .ok buf => respond .ok buf s
  | .error e => deliverError e s

/-- HEX2BIN (R121). -/
def execHex2bin (o : Operands) (s : State) : Host.Outcome State Fault Refusal :=
  .next (hostOp (formPayload o) [needCfg s] (answer (hex2bin o.payload)) s)

/-- BSTR2ARR (R122): one byte 0x00 or 0x01 per character. -/
def execBstr2arr (o : Operands) (s : State) : Host.Outcome State Fault Refusal :=
  .next (hostOp (formBinStr o) [needCfg s]
    (answer (.ok ((binArrayFromBinStr o.payload).map fun b => if b then 0x01 else 0x00))) s)

/-- BIN2HEX (R123). -/
def execBin2hex (o : Operands) (s : State) : Host.Outcome State Fault Refusal :=
  .next (hostOp (formBitArray o) [needCfg s] (answer (.ok (bin2hex (opBitArray o)))) s)

end Sys2Proof.Machine
end

