-- ==== Sys2Proof/Machine/Frames.lean ====
section
/-! DEFINITION. The Frame codec operations (spec/44_frame_codec.md R230, R240). They read N_CH and write no state but the
response. -/

namespace Sys2Proof.Machine

/-- The response of FRM.BUILD (R230): the wire bytes of the Frame, or the build error (R231). -/
def buildAnswer (n : Nat) (o : Operands) : Except ErrCode (List Byte) :=
  match frmBuild n o.a (opCmd o) (opData o) with
  | .ok f => .ok (frmSerialize f)
  | .error e => .error e

/-- FRM.BUILD (R230). -/
def execFrmBuild (o : Operands) (s : State) : Host.Outcome State Fault Refusal :=
  .next (hostOp (formCmdData o) [needCfg s] (answer (buildAnswer s.cfg.nCh o)) s)

/-- FRM.PARSE (R240): a parse that reports a bad Frame is a successful operation. -/
def execFrmParse (o : Operands) (s : State) : Host.Outcome State Fault Refusal :=
  .next (hostOp (formParse o) [needCfg s]
    (answer (.ok (parseRecord (frmParse o.payload s.cfg.nCh (opDev o))))) s)

end Sys2Proof.Machine
end

