-- ==== Sys2Proof/Machine/Hamming.lean ====
section
/-! DEFINITION. The FEC operations (spec/41_hamming_fec.md R143, R145). They read and write no state but the response. -/

namespace Sys2Proof.Machine

/-- FEC.ENC (R143): one byte, the code word with its first bit in bit 7. -/
def execFecEnc (o : Operands) (s : State) : Host.Outcome State Fault Refusal :=
  .next (hostOp (formNibble o) [needCfg s] (answer (.ok [bitsByte (fecEncBits (opMessage o))])) s)

/-- The response of FEC.DEC (R145): the message in bits 3..0 with its first bit in bit 3, or `DoubleErrorDetected`. -/
def fecDecAnswer (w : List Bool) : Except ErrCode (List Byte) :=
  match fecDecBits w with
  | some m => .ok [bitsByte m]
  | none => .error .doubleErrorDetected

/-- FEC.DEC (R145). -/
def execFecDec (o : Operands) (s : State) : Host.Outcome State Fault Refusal :=
  .next (hostOp (formByte o) [needCfg s] (answer (fecDecAnswer (opWord o))) s)

end Sys2Proof.Machine
end

