-- ==== Sys2Proof/Machine/System.lean ====
section
/-! DEFINITION. The system operations CFG, RST and RDST (spec/46_system.md R310 to R315). -/

namespace Sys2Proof.Machine

/-- `ConfigError` unless the record passes the checks of R311 (R310, R320). -/
def needValidRecord (p : List Byte) (s : State) : Option ErrCode :=
  if cfgValidRecord s.params.chMax p s.cfg then none else some .configError

/-- The registers CFG writes (R310): the configuration, what is derived from it, and CFG_VALID. -/
def configure (p : List Byte) (s : State) : State :=
  { s with cfgValid := true, cfg := recRegs p s.cfg, rom := deriveRom s.params (recRegs p s.cfg) s.rom }

/-- CFG (R310). -/
def execCfg (o : Operands) (s : State) : Host.Outcome State Fault Refusal :=
  .next (hostOp (formCfg o) [needNoCfg s, needValidRecord o.payload s]
    (fun s => respond .ok [] (configure o.payload s)) s)

/-- RST (R313): the reset transition; accepted in every state. -/
def execRst (o : Operands) (s : State) : Host.Outcome State Fault Refusal :=
  .next (hostOp (formPlain o) [] resetRegs s)

/-- RDST (R314): STATUS, 4 bytes big-endian; accepted in every state. -/
def execRdst (o : Operands) (s : State) : Host.Outcome State Fault Refusal :=
  .next (hostOp (formPlain o) [] (fun s => respond .ok (be32 (status s)) s) s)

end Sys2Proof.Machine
end

