-- ==== Sys2Proof/Machine/Dispatch.lean ====
section
/-! DEFINITION. One arm per instruction. -/

namespace Sys2Proof.Machine

def exec (i : Instr) (s : State) : Host.Outcome State Fault Refusal :=
  match i with
  | .cfg o => Sys2Proof.Machine.execCfg o s
  | .rst o => Sys2Proof.Machine.execRst o s
  | .rdst o => Sys2Proof.Machine.execRdst o s
  | .hex2bin o => Sys2Proof.Machine.execHex2bin o s
  | .bstr2arr o => Sys2Proof.Machine.execBstr2arr o s
  | .bin2hex o => Sys2Proof.Machine.execBin2hex o s
  | .fecEnc o => Sys2Proof.Machine.execFecEnc o s
  | .fecDec o => Sys2Proof.Machine.execFecDec o s
  | .encLdhex o => Sys2Proof.Machine.execEncLdhex o s
  | .encLdfrm o => Sys2Proof.Machine.execEncLdfrm o s
  | .encRun o => Sys2Proof.Machine.execEncRun o s
  | .decStart o => Sys2Proof.Machine.execDecStart o s
  | .decStop o => Sys2Proof.Machine.execDecStop o s
  | .decRdhex o => Sys2Proof.Machine.execDecRdhex o s
  | .decRdfrm o => Sys2Proof.Machine.execDecRdfrm o s
  | .frmBuild o => Sys2Proof.Machine.execFrmBuild o s
  | .frmParse o => Sys2Proof.Machine.execFrmParse o s
  | .mSend o => Sys2Proof.Machine.execMSend o s
  | .mSendbc o => Sys2Proof.Machine.execMSendbc o s
  | .mIdle o => Sys2Proof.Machine.execMIdle o s
  | .mStop o => Sys2Proof.Machine.execMStop o s
  | .mSetto o => Sys2Proof.Machine.execMSetto o s
  | .sStart o => Sys2Proof.Machine.execSStart o s
  | .sStop o => Sys2Proof.Machine.execSStop o s
  | .stx addr data => Sys2Proof.Machine.execStx addr data s
  | .ack addr => Sys2Proof.Machine.execAck addr s
  | .nak addr => Sys2Proof.Machine.execNak addr s
  | .cmdOther addr cmd => Sys2Proof.Machine.execCmdOther addr cmd s

end Sys2Proof.Machine
end

