-- ==== Sys2Proof/Machine/Agents.lean ====
section
/-! DEFINITION. The turns of the agents that run instructions: HOST takes a packet from its port (spec/30_encoding.md R90,
R96), MASTER and SLAVE take a result from the handoff slot (spec/45_device_transport.md R271, R287); and the choice among
the transport steps by their guards (R266, R285). -/

namespace Sys2Proof.Machine

/-- A turn of HOST (R92, R96): the next packet of its port is decoded and run. HOST is blocked during its own ENC.RUN
(R81; log 14), and waits where no whole packet has arrived (log 3, log 4). -/
def hostTurn (s : State) : Host.Outcome State Fault Refusal :=
  if s.hostWait then .next s
  else
    match decodePacket s.hostIn with
    | .ok (i, rest) => exec i { s with hostIn := rest }
    | .error (.badOpcode _ rest) => .next (deliverError .badOpcode { s with hostIn := rest })
    | .error .incomplete => .next s

/-- m6 (R271): the result is taken; a Frame that parses is run as the instruction its command byte is. -/
def m6 (s : State) : Host.Outcome State Fault Refusal :=
  match s.hslot with
  | some (.bytes bs) =>
    match decodeFrame s.cfg.nCh (some MASTER_ADDR) bs with
    | .ok i => exec i { s with hslot := none }
    | .error (pr, ac) => .next (mNoFrame pr ac { s with hslot := none })
  | some .sourceError => .next (mRetry { s with hslot := none })
  | none => .next s

/-- s4 (R287): the result is taken; a Frame that parses is run as the instruction its command byte is. -/
def s4 (s : State) : Host.Outcome State Fault Refusal :=
  match s.hslot with
  | some (.bytes bs) =>
    match decodeFrame s.cfg.nCh (some s.cfg.devAddr) bs with
    | .ok i => exec i { s with hslot := none }
    | .error (pr, ac) => .next (sNoFrame pr ac { s with hslot := none })
  | some .sourceError => .next (sSourceError { s with hslot := none })
  | none => .next s

/-- One step of the master (R266 to R275). -/
def mRun (k : MStep) (s : State) : Host.Outcome State Fault Refusal :=
  match k with
  | .m1 => .next (m1 s)
  | .m2 => .next (m2 s)
  | .m3 => .next (m3 s)
  | .m4 => .next (m4 s)
  | .m5 => .next (m5 s)
  | .m6 => m6 s
  | .m7 => .next (m7 s)
  | .m8 => .next (m8 s)
  | .m9 => .next (m9 s)

/-- One step of the slave (R285 to R290). -/
def sRun (k : SStep) (s : State) : Host.Outcome State Fault Refusal :=
  match k with
  | .s1 => .next (s1 s)
  | .s2 => .next (s2 s)
  | .s3 => .next (s3 s)
  | .s4 => s4 s
  | .s5 => .next (s5 s)
  | .s6 => .next (s6 s)

/-- A turn of MASTER: the step whose guard holds, if the device is a master (R266; log 3). -/
def masterTurn (s : State) : Host.Outcome State Fault Refusal :=
  if isMaster s then
    match mEnabled s with
    | some k => mRun k s
    | none => .next s
  else .next s

/-- A turn of SLAVE: the step whose guard holds, if the device is a slave (R285; log 3). -/
def slaveTurn (s : State) : Host.Outcome State Fault Refusal :=
  if isSlave s then
    match sEnabled s with
    | some k => sRun k s
    | none => .next s
  else .next s

/-- The turn of an agent (R16, R72). -/
def agentTurn (a : Agent) (s : State) : Host.Outcome State Fault Refusal :=
  match a with
  | .host => hostTurn s
  | .enc => .next (encTurn s)
  | .dec => .next (decTurn s)
  | .master => masterTurn s
  | .slave => slaveTurn s
  | .clk => .next (clkTurn s)
  | .resetIn => .next (resetRegs s)

/-! ### Where the next instruction is fetched from (log 19) -/

/-- A master's configuration, for a device that has none yet: 48000 Hz, 16 channels from 18000 Hz, step 20 Hz, DataFrame
mode, NFFT 8192, threshold 3/10 (the second configuration of spec/95_test_vectors.md section 9.0). -/
def masterCfg : CfgRegs :=
  { role := .master, devAddr := MASTER_ADDR, sampleRate := 48000, nCh := 16, firstFreq := 18000, freqStep := 20,
    tOnePulse := 1 / 10, tBreak := 1 / 5, fadeLength := 1 / 20, secdedEn := true, mode := .dataFrame, nfft := 8192,
    nfftValid := true, threshold := 3 / 10, thrValid := true }

/-- A device that is a master: as it is, or configured as one. -/
def asMaster (s : State) : State :=
  if isMaster s then s else { s with cfgValid := true, cfg := masterCfg, rom := deriveRom s.params masterCfg s.rom }

/-- A packet at the front of the HOST port, HOST free, and HOST's turn. -/
def placePacket (bs : List Byte) (s : State) : State :=
  { s with hostIn := bs ++ s.hostIn, hostWait := false, sched := .host :: s.sched }

/-- A received Frame in the handoff slot of a master that awaits it, and MASTER's turn. -/
def placeFrame (bs : List Byte) (s : State) : State :=
  let s := asMaster s
  { s with hslot := some (.bytes bs), sched := .master :: s.sched
           mst := { s.mst with state := .awaitingResponse, tmo := false } }

end Sys2Proof.Machine
end

