-- ==== Sys2Proof/Machine/Step.lean ====
section
/-! DEFINITION. One step of the machine: the agent whose turn it is takes its step (spec/20_memory.md R72). -/

namespace Sys2Proof.Machine

/-- The step function. -/
def step (s : State) : Host.Outcome State Fault Refusal :=
  agentTurn (takeTurn s).1 (takeTurn s).2

/-- The state in which the very next step runs the instruction of a table row (log 19): a packet at the HOST port for a
HOSTCMD row, a Frame in the handoff slot of a waiting master for a CTRL row (8 bits). -/
def State.withFetchWord (s : State) (nbits w : Nat) : State :=
  if nbits = 8 then placeFrame (ctrlBytes w) s else placePacket (headerBytes w) s

end Sys2Proof.Machine
end

