-- ==== Sys2Proof/Safety.lean ====
section
/-! DEFINITION. What holds of every state a run can reach: the promises the spec makes about the whole machine, as one
invariant of four parts (configuration, encoder, decoder with its handoff slot, transport), and what a safe step is. -/

namespace Sys2Proof.Machine

/-- A step is safe when it ends in a next state: nothing stops the block (spec/60_exceptions.md R325). -/
def safe (r : Host.Outcome State Fault Refusal) : Prop := ∃ t, r = .next t

/-- The operation `i` is refused with the error `e` in state `s`: the error is its response, and nothing else changes
(spec/60_exceptions.md R321, R322). -/
def refuses (e : ErrCode) (i : Instr) (s : State) : Prop := exec i s = .next { s with resCode := e, resBuf := [] }

/-- The reset values of spec/10_state.md R50, register by register; the registers that table calls unspecified are not
mentioned. -/
structure AtReset (t : State) : Prop where
  cfgValid : t.cfgValid = false
  enc : t.enc = { phase := .idle, hex := none, frm := none, bits := [], slot := 0, err := .ok }
  decControl : t.dec.run = false ∧ t.dec.alive = false ∧ t.dec.phase = .top ∧ t.dec.err = .ok
  decOld : ∀ i, oldAt t.dec.old i = 0
  decBuffers : t.dec.raw = [] ∧ t.dec.msg = [] ∧ t.dec.rxBytes = [] ∧ t.dec.rxHex = []
  decFlags : t.dec.eot = false ∧ t.dec.ded = false ∧ t.dec.ovf = false
  hslot : t.hslot = none
  mst : t.mst = { state := .idle, pend := none, last := none, t0 := 0, stopReq := false, tmo := false, txWait := false,
                  retries := 0, err := .ok }
  slv : t.slv = { state := .idle, run := false, reply := none, txWait := false }
  timeoutMs : t.timeoutMs = t.params.timeoutDefaultMs
  result : t.resCode = .ok ∧ t.resBuf = []
  statusZero : status t = 0

/-- The syndrome `[s0, s1, s2, s3]` of a received word, bit 7 first (spec/41_hamming_fec.md R140, R144), by its parity
equations. -/
def wordSyndrome (w : Byte) : List Bool :=
  let c := fun j => w.getLsbD (7 - j)
  [c 0 ^^ c 2 ^^ c 4 ^^ c 6, c 1 ^^ c 2 ^^ c 5 ^^ c 6, c 3 ^^ c 4 ^^ c 5 ^^ c 6,
    c 0 ^^ c 1 ^^ c 2 ^^ c 3 ^^ c 4 ^^ c 5 ^^ c 6 ^^ c 7]

/-- The parity of the number of ones of a received word (spec/41_hamming_fec.md R141). -/
def wordParity (w : Byte) : Bool :=
  let c := fun j => w.getLsbD (7 - j)
  c 0 ^^ c 1 ^^ c 2 ^^ c 3 ^^ c 4 ^^ c 5 ^^ c 6 ^^ c 7

/-- The message byte of a word: bits 3..0 are `w[2], w[4], w[5], w[6]` (spec/41_hamming_fec.md R145). -/
def wordMessage (w : Byte) : Byte :=
  BitVec.ofNat 8 (8 * (w.getLsbD 5).toNat + 4 * (w.getLsbD 3).toNat + 2 * (w.getLsbD 2).toNat + (w.getLsbD 1).toNat)

/-- The code word of a message byte, by the parity equations of spec/41_hamming_fec.md R140, with its first bit in
bit 7. -/
def codeWord (a : Byte) : Byte :=
  let m := fun j => a.getLsbD (3 - j)
  BitVec.ofNat 8 (128 * (m 0 ^^ m 1 ^^ m 3).toNat + 64 * (m 0 ^^ m 2 ^^ m 3).toNat + 32 * (m 0).toNat
    + 16 * (m 1 ^^ m 2 ^^ m 3).toNat + 8 * (m 1).toNat + 4 * (m 2).toNat + 2 * (m 3).toNat
    + (m 0 ^^ m 1 ^^ m 2).toNat)

/-- A word with the bit at position `j` (bit `7 − j`) flipped. -/
def flipWord (w : Byte) (j : Nat) : Byte := w ^^^ (BitVec.ofNat 8 (2 ^ (7 - j)))

/-- Element k of a tone of frequency `f` (spec/42_tone_modulator.md R162 to R164), by the lengths that the derived constants
of `r` hold. -/
def toneValue (c : CfgRegs) (r : Rom) (f : Rat) (k : Nat) : Rat :=
  let j : Rat := (k : Rat) - r.nBrk
  let fade : Rat := if r.lFade = 0 then 1 else min 1 (min (j / r.lFade) ((r.nAct - 1 - j) / r.lFade))
  if r.nBrk ≤ k ∧ k < r.nBrk + r.nAct then fade * numSin (2 * numPi * f * j / c.sampleRate) else 0

/-- The integer a mixed value in −1..1 becomes at the sink (spec/42_tone_modulator.md R165): `32767 · x`, truncated toward
zero. -/
def quantised (x : Rat) : Int := if 0 ≤ x then ⌊32767 * x⌋ else ⌈32767 * x⌉

/-- The configuration: legal, coherent with what was derived from it, and an unconfigured block as reset left it. -/
structure ConfigInv (s : State) : Prop where
  /-- A configured block's registers pass the checks of spec/46_system.md R311. -/
  legal : s.cfgValid = true → cfgRegsOk s.params.chMax s.cfg = true
  /-- The registers the record carries as fractions lie in the legal ranges of spec/10_state.md R22, R23. -/
  ranges : s.cfgValid = true → 0 < s.cfg.tOnePulse ∧ 0 ≤ s.cfg.tBreak ∧ 0 ≤ s.cfg.fadeLength ∧ s.cfg.fadeLength ≤ 1 / 2 ∧
    (s.cfg.thrValid = true → 0 ≤ s.cfg.threshold)
  /-- Derived constants and ROMs are never stale (spec/20_memory.md R78, R24). -/
  fresh : s.cfgValid = true → deriveRom s.params s.cfg s.rom = s.rom
  /-- While unconfigured every sequencer is Idle and every buffer empty (spec/70_reset_and_hazards.md R350, R316). -/
  bare : s.cfgValid = false →
    s.enc = EncRegs.reset ∧ (∃ buf, s.dec = DecRegs.reset buf) ∧ s.hslot = none ∧ s.mst = MasterRegs.reset ∧
      s.slv = SlaveRegs.reset ∧ s.timeoutMs = s.params.timeoutDefaultMs ∧ s.lerr = .ok ∧ s.hostWait = false
  /-- Where the role is not Master the master's registers are as reset left them (spec/10_state.md R38). -/
  noMaster : s.cfgValid = true → s.cfg.role ≠ .master →
    s.mst = MasterRegs.reset ∧ s.timeoutMs = s.params.timeoutDefaultMs
  /-- Where the role is not Slave the slave's registers are as reset left them (spec/10_state.md R39). -/
  noSlave : s.cfgValid = true → s.cfg.role ≠ .slave → s.slv = SlaveRegs.reset

/-- The encoder while it transmits (spec/42_tone_modulator.md R176, R178). -/
structure EncoderInv (s : State) : Prop where
  /-- The coded bitstream is a multiple of the number of channels (spec/10_state.md R29). -/
  whole : s.enc.phase = .transmitting → s.enc.bits.length % s.cfg.nCh = 0
  /-- There is at least one slot (R176). -/
  someSlot : s.enc.phase = .transmitting → s.enc.bits ≠ []
  /-- ENC_SLOT counts from 0 to S + 1 (spec/10_state.md R46). -/
  slot : s.enc.phase = .transmitting → s.enc.slot ≤ slotCount s + 1
  /-- HOST waits only for a transmission of its own (spec/20_memory.md R81). -/
  wait : s.hostWait = true → s.enc.phase = .transmitting ∧ s.cfg.role = .standalone

/-- The decoder and the handoff slot (spec/10_state.md R30 to R35). -/
structure DecoderInv (s : State) : Prop where
  /-- DEC_RUN is set only with DEC_ALIVE (spec/43_spectral_demodulator.md R190, R213, R215). -/
  run : s.dec.run = true → s.dec.alive = true
  /-- A result in HSLOT means the decoder has exited (spec/20_memory.md R74 (d)). -/
  handoff : s.hslot.isSome = true → s.dec.alive = false
  /-- RAW holds whole slots (spec/10_state.md R32). -/
  rawWhole : s.cfgValid = true → s.dec.raw.length % s.cfg.nCh = 0
  /-- RAW holds less than one decode cycle (spec/10_state.md R32). -/
  rawShort : s.cfgValid = true → s.dec.raw.length < Nat.lcm s.cfg.nCh 16
  /-- Capacity of RX_BYTES (spec/43_spectral_demodulator.md R214). -/
  bytesFit : s.dec.rxBytes.length ≤ s.params.rxMax
  /-- Capacity of RX_HEX (R214). -/
  hexFits : s.dec.rxHex.length ≤ s.params.rxMax
  /-- Capacity of MSG (R214). -/
  msgFits : s.dec.msg.length ≤ 8 * s.params.rxMax
  /-- The loop has ended by the time EOT_FLAG can be seen (spec/43_spectral_demodulator.md R195, R213). -/
  noEot : s.dec.alive = true → s.dec.eot = false
  /-- A decoder runs only with NFFT and THRESHOLD supplied (spec/10_state.md R23). -/
  available : s.dec.alive = true → s.cfgValid = true ∧ s.cfg.nfftValid = true ∧ s.cfg.thrValid = true
  /-- A joined decoder stands at the loop's top (R193, R195). -/
  joined : s.dec.alive = false → s.dec.phase = .top
  /-- A pulled audio frame has N_DEC samples (spec/43_spectral_demodulator.md R194). -/
  frame : s.dec.phase = .haveFrame → s.dec.frameBuf.length = s.rom.nDec

/-- The transport's sequencing (spec/45_device_transport.md). -/
structure TransportInv (s : State) : Prop where
  /-- M_LAST holds the action that is being sent (R267, R268). -/
  action : s.mst.state ≠ .idle → s.mst.last.isSome = true
  /-- M_TXWAIT belongs to Sending (R268, R269). -/
  txWait : s.mst.txWait = true → s.mst.state = .sending
  /-- M_TMO belongs to AwaitingResponse, and the decoder was told to stop (R272, R274). -/
  tmo : s.mst.tmo = true → s.mst.state = .awaitingResponse ∧ s.dec.run = false
  /-- Outside AwaitingResponse the master's decoder has exited (R268). -/
  masterQuiet : isMaster s = true → s.mst.state ≠ .awaitingResponse → s.dec.alive = false
  /-- The master's encoder is busy only while the master waits for it (R268). -/
  masterSilent : isMaster s = true → s.mst.txWait = false → s.enc.phase = .idle
  /-- A master that awaits a response has a running decoder or a result (R270, R271). -/
  masterWaits : isMaster s = true → s.mst.state = .awaitingResponse → s.mst.tmo = false →
    (s.dec.run = true ∧ s.dec.alive = true) ∨ s.hslot.isSome = true
  /-- S_TXWAIT belongs to Idle and to a reply (R286). -/
  slaveTx : s.slv.txWait = true → s.slv.state = .idle ∧ s.slv.reply.isSome = true
  /-- A slave that listens owes no reply (R285, R290). -/
  slaveOwes : s.slv.state = .receiving → s.slv.reply = none
  /-- Outside Receiving the slave's decoder has exited (R286, R289). -/
  slaveQuiet : isSlave s = true → s.slv.state = .idle → s.dec.alive = false
  /-- The slave's encoder is busy only while the slave waits for it (R286). -/
  slaveSilent : isSlave s = true → s.slv.txWait = false → s.enc.phase = .idle
  /-- In the transport roles the decoder never runs while the device transmits (spec/20_memory.md R73). -/
  exclusive : s.cfgValid = true → s.cfg.role ≠ .standalone → s.enc.phase = .transmitting → s.dec.alive = false

/-- The invariant of the machine. -/
structure Inv (s : State) : Prop where
  config : ConfigInv s
  encoder : EncoderInv s
  decoder : DecoderInv s
  transport : TransportInv s

end Sys2Proof.Machine
end

