-- ==== Sys2Proof/Certificates/Slice0/Obligations.lean ====
section
/-! DEFINITION. The statements for the provers. Each docstring names the rules of spec/ it formalises; a statement that
rests on a choice of the model names the log entry. `{ s with … }` says that every field not named is unchanged, so each
equation of next states is also the instruction's frame. -/

open Sys2Proof Sys2Proof.Machine

/-! ### The system operations and reset -/

/-- R313, R351 (and the table of R50): RST is accepted in every state, every register takes its reset value, the reset
input is the same transition, and EVT, NOW, what crossed the sink, the source's coming frames and the device's parameters
are not touched. -/
def Obligations.RstIsTheResetTransition : Prop :=
  ∀ (o : Operands) (s : State), formPlain o = true →
    ∃ t, exec (.rst o) s = .next t ∧ AtReset t ∧ t.params = s.params ∧ t.evt = s.evt ∧ t.now = s.now ∧ t.snkOut = s.snkOut ∧
      t.srcIn = s.srcIn ∧ ∀ rest, step { s with sched := .resetIn :: rest } = exec (.rst o) { s with sched := rest }

/-- R350, R316: while CFG_VALID = 0 no agent of the block has an enabled step (in every state of the invariant; an agent
without an enabled step passes its turn: log 3). -/
def Obligations.UnconfiguredAgentsDoNothing : Prop :=
  ∀ s : State, ConfigInv s → s.cfgValid = false →
    agentTurn .enc s = .next s ∧ agentTurn .dec s = .next s ∧ agentTurn .master s = .next s ∧ agentTurn .slave s = .next s

/-- R310, R312, R315 (with R22, R25, R26, R27, and the ROMs' elements by R160 to R166 and R197): what CFG writes, and its
refusals; nothing else changes. Registers that the record does not give and for which R315 has no default (NFFT, THRESHOLD
and what is derived from NFFT) are not spoken of. The sine, cosine and pi are any with the named properties of log 8. -/
def Obligations.CfgWritesTheConfiguration : Prop :=
  ∀ (o : Operands) (s : State), formCfg o = true →
    let p := o.payload
    (s.cfgValid = true → refuses .alreadyConfigured (.cfg o) s) ∧
    (s.cfgValid = false → cfgValidRecord s.params.chMax p s.cfg = false → refuses .configError (.cfg o) s) ∧
    (s.cfgValid = false → cfgValidRecord s.params.chMax p s.cfg = true →
      ∃ (c : CfgRegs) (r : Rom),
        exec (.cfg o) s = .next { s with cfgValid := true, cfg := c, rom := r, resCode := .ok, resBuf := [] } ∧
        recRole p = some c.role ∧
        c.devAddr = (if c.role = .slave then p.getD 1 0 else 0x00) ∧
        c.sampleRate = (recNat p 4 4 : Rat) ∧ c.nCh = recNat p 8 2 ∧
        c.firstFreq = (recNat p 10 4 : Rat) ∧ c.freqStep = (recNat p 14 4 : Rat) ∧
        c.tOnePulse = (if recGiven p 0 then (recNat p 18 4 : Rat) / recNat p 22 4 else 2 / c.freqStep) ∧
        c.tBreak = (if recGiven p 1 then (recNat p 26 4 : Rat) / recNat p 30 4 else 2 * c.tOnePulse) ∧
        c.fadeLength = (if recGiven p 2 then (recNat p 34 4 : Rat) / recNat p 38 4 else 1 / 20) ∧
        c.secdedEn = (if recGiven p 3 then recValue p 0 else true) ∧
        c.mode = (if recGiven p 4 && !recValue p 1 then .simple else .dataFrame) ∧
        c.nfftValid = recGiven p 5 ∧ (recGiven p 5 = true → c.nfft = recNat p 42 4) ∧
        c.thrValid = recGiven p 6 ∧ (recGiven p 6 = true → c.threshold = (recNat p 46 4 : Rat) / recNat p 50 4) ∧
        (∀ i < c.nCh, r.low[i]? = some (c.firstFreq + i * 2 * c.freqStep) ∧
          r.high[i]? = some (c.firstFreq + c.freqStep + i * 2 * c.freqStep)) ∧
        r.low.length = c.nCh ∧ r.high.length = c.nCh ∧
        r.nEnc = ⌈(c.tOnePulse + c.tBreak) * c.sampleRate⌉.toNat ∧ r.nDec = ⌈c.tOnePulse * c.sampleRate⌉.toNat ∧
        r.nAct = r.nDec ∧ r.nBrk = ⌊c.tBreak * c.sampleRate / 2⌋.toNat ∧ r.nEnc = r.nBrk + r.nAct + r.nTail ∧
        r.lFade = ⌊c.fadeLength * r.nAct⌋.toNat ∧
        r.tone.length = c.nCh ∧
        (∀ i < c.nCh, ∃ low high, r.tone[i]? = some (low, high) ∧ low.length = r.nEnc ∧ high.length = r.nEnc ∧
          ∀ k < r.nEnc, low[k]? = some (toneValue c r (c.firstFreq + i * 2 * c.freqStep) k) ∧
            high[k]? = some (toneValue c r (c.firstFreq + c.freqStep + i * 2 * c.freqStep) k)) ∧
        r.cal.length = r.nEnc ∧
        (∀ k < r.nEnc, ∃ v, r.cal[k]? = some v ∧ v.toInt = quantised (toneValue c r s.params.calFreq k)) ∧
        (recGiven p 5 = true →
          r.deltaF = c.sampleRate / c.nfft ∧ r.win.length = r.nDec ∧
          (∀ k < r.nDec, r.win[k]? = some (if r.nDec = 1 then 1
            else 54 / 100 - 46 / 100 * numCos (2 * numPi * k / ((r.nDec : Rat) - 1)))) ∧
          (∀ i < c.nCh,
            r.kLo[i]? = some ⌈(c.firstFreq + i * 2 * c.freqStep - r.deltaF) / r.deltaF⌉.toNat ∧
            r.kHi[i]? = some ⌊(c.firstFreq + c.freqStep + i * 2 * c.freqStep + r.deltaF) / r.deltaF⌋.toNat) ∧
          r.kLo[0]? = some r.bLo ∧ r.kHi[c.nCh - 1]? = some r.bHi))

/-- R311: CFG raises ConfigError exactly when one of the ten conditions fails. -/
def Obligations.CfgChecksTheTenConditions : Prop :=
  ∀ (o : Operands) (s : State), formCfg o = true → s.cfgValid = false →
    let p := o.payload
    let c := recRegs p s.cfg
    refuses .configError (.cfg o) s ↔
      ¬ (0 < c.sampleRate ∧
        ((∃ k, c.nCh = 2 ^ k) ∧ 1 ≤ c.nCh ∧ c.nCh ≤ s.params.chMax) ∧
        (0 < c.firstFreq ∧ 0 < c.freqStep) ∧
        ((recGiven p 0 = true → recNat p 22 4 ≠ 0 ∧ 0 < c.tOnePulse) ∧
          (recGiven p 1 = true → recNat p 30 4 ≠ 0 ∧ 0 ≤ c.tBreak) ∧
          (recGiven p 2 = true → recNat p 38 4 ≠ 0 ∧ 0 ≤ c.fadeLength ∧ c.fadeLength ≤ 1 / 2) ∧
          (recGiven p 6 = true → recNat p 50 4 ≠ 0)) ∧
        (1 ≤ lenDec c ∧ lenEnc c < 2 ^ 31) ∧
        (recGiven p 5 = true → ∃ k, c.nfft = 2 ^ k) ∧
        (recGiven p 5 = true → lenDec c ≤ c.nfft) ∧
        (recGiven p 5 = true → 2 ≤ binLo c 0 ∧ 2 * binHi c (c.nCh - 1) ≤ c.nfft) ∧
        (c.role = .slave → 0x01 ≤ c.devAddr.toNat ∧ c.devAddr.toNat ≤ 0xFE) ∧
        (c.role ≠ .standalone → c.mode = .dataFrame ∧ recGiven p 5 = true ∧ recGiven p 6 = true))

/-- R25, R27, R61: in a configured block the channels are contiguous and strictly increasing and, with NFFT given, every
channel's window holds at least two bins and lies inside the DFT's lower half, and an audio frame fits the DFT. -/
def Obligations.ChannelWindowsLieInsideTheBand : Prop :=
  ∀ s : State, ConfigInv s → s.cfgValid = true →
    (∀ i < s.cfg.nCh, ∃ low high, s.rom.low[i]? = some low ∧ s.rom.high[i]? = some high ∧ low < high ∧
      (i + 1 < s.cfg.nCh → ∃ next, s.rom.low[i + 1]? = some next ∧ high < next ∧ next - high = s.cfg.freqStep)) ∧
    (s.cfg.nfftValid = true → s.rom.nDec ≤ s.cfg.nfft ∧
      ∀ i < s.cfg.nCh, ∃ lo hi, s.rom.kLo[i]? = some lo ∧ s.rom.kHi[i]? = some hi ∧
        2 ≤ lo ∧ lo + 1 ≤ hi ∧ 2 * hi ≤ s.cfg.nfft)

/-- R314 (the fields of R40): RDST answers STATUS, 4 bytes, most significant first, and changes no state. ROLE, MST and SST
are spoken of for a configured block only (log 12); LERR is the register of log 13. -/
def Obligations.RdstAnswersStatus : Prop :=
  ∀ (o : Operands) (s : State), formPlain o = true →
    ∃ w : BitVec 32,
      exec (.rdst o) s = .next { s with
        resCode := .ok
        resBuf := [w.extractLsb' 24 8, w.extractLsb' 16 8, w.extractLsb' 8 8, w.extractLsb' 0 8] } ∧
      w.getLsbD 0 = s.cfgValid ∧
      w.getLsbD 1 = decide (s.enc.phase = .transmitting) ∧
      w.getLsbD 2 = s.dec.run ∧ w.getLsbD 3 = s.dec.alive ∧ w.getLsbD 4 = s.dec.eot ∧ w.getLsbD 5 = s.dec.ded ∧
      w.getLsbD 6 = decide (s.dec.err = .ioError) ∧ w.getLsbD 7 = s.dec.ovf ∧
      (s.cfgValid = true → w.extractLsb' 8 2 = match s.cfg.role with
        | .standalone => 0
        | .master => 1
        | .slave => 2) ∧
      (s.cfgValid = true → w.extractLsb' 10 2 = if s.cfg.role = .master then
          match s.mst.state with
          | .idle => 0
          | .sending => 1
          | .awaitingResponse => 2
        else 0) ∧
      w.getLsbD 12 = s.mst.pend.isSome ∧
      (s.cfgValid = true → w.getLsbD 13 = decide (s.cfg.role = .slave ∧ s.slv.state = .receiving)) ∧
      w.getLsbD 14 = s.slv.run ∧ w.getLsbD 15 = s.hslot.isSome ∧
      w.extractLsb' 16 8 = errCode s.lerr ∧ w.extractLsb' 24 8 = 0

/-! ### Converters -/

/-- R120, R121: HEX2BIN drops at most one leading `-`, refuses what is then empty or no hex digit, and answers four
characters per digit, most significant bit first; upper and lower case give the same. -/
def Obligations.Hex2binConvertsDigitByDigit : Prop :=
  ∀ (o : Operands) (s : State), formPayload o = true →
    let t := if o.payload.head? = some 0x2D then o.payload.tail else o.payload
    let digit : Byte → Nat → Prop := fun c v =>
      v < 16 ∧ (c = BitVec.ofNat 8 (if v < 10 then 0x30 + v else 0x61 + (v - 10)) ∨
        c = BitVec.ofNat 8 (if v < 10 then 0x30 + v else 0x41 + (v - 10)))
    (s.cfgValid = false → refuses .notConfigured (.hex2bin o) s) ∧
    (s.cfgValid = true → (t = [] ∨ ∃ c ∈ t, ∀ v, ¬ digit c v) → refuses .invalidHexData (.hex2bin o) s) ∧
    (s.cfgValid = true → t ≠ [] → (∀ c ∈ t, ∃ v, digit c v) →
      ∃ out, exec (.hex2bin o) s = .next { s with resCode := .ok, resBuf := out } ∧ out.length = 4 * t.length ∧
        ∀ (j : Nat) (c : Byte) (v : Nat), t[j]? = some c → digit c v →
          ∀ k < 4, out[4 * j + k]? = some (if v.testBit (3 - k) then 0x31 else 0x30))

/-- R122: BSTR2ARR answers one byte 0x00 or 0x01 per character, in order; any other character is BadPacket. -/
def Obligations.Bstr2arrConvertsEachCharacter : Prop :=
  ∀ (o : Operands) (s : State), formPayload o = true →
    ((∃ c ∈ o.payload, c ≠ 0x30 ∧ c ≠ 0x31) → refuses .badPacket (.bstr2arr o) s) ∧
    ((∀ c ∈ o.payload, c = 0x30 ∨ c = 0x31) → s.cfgValid = false → refuses .notConfigured (.bstr2arr o) s) ∧
    ((∀ c ∈ o.payload, c = 0x30 ∨ c = 0x31) → s.cfgValid = true →
      ∃ out, exec (.bstr2arr o) s = .next { s with resCode := .ok, resBuf := out } ∧ out.length = o.payload.length ∧
        ∀ j : Nat, (o.payload[j]? = some 0x30 → out[j]? = some 0x00) ∧ (o.payload[j]? = some 0x31 → out[j]? = some 0x01))

/-- R123: BIN2HEX answers one lower-case digit per four bits, first bit most significant; a length that is no multiple of 4
is BadPacket. -/
def Obligations.Bin2hexConvertsEachNibble : Prop :=
  ∀ (o : Operands) (s : State), formPayload o = true → (∀ c ∈ o.payload, c = 0x00 ∨ c = 0x01) →
    (o.payload.length % 4 ≠ 0 → refuses .badPacket (.bin2hex o) s) ∧
    (o.payload.length % 4 = 0 → s.cfgValid = false → refuses .notConfigured (.bin2hex o) s) ∧
    (o.payload.length % 4 = 0 → s.cfgValid = true →
      ∃ out, exec (.bin2hex o) s = .next { s with resCode := .ok, resBuf := out } ∧
        out.length = o.payload.length / 4 ∧
        ∀ j < out.length,
          let bit := fun k => (o.payload.getD (4 * j + k) 0).toNat
          let v := 8 * bit 0 + 4 * bit 1 + 2 * bit 2 + bit 3
          out[j]? = some (BitVec.ofNat 8 (if v < 10 then 0x30 + v else 0x61 + (v - 10))))

/-- R124: the round trip of the three converters, up to the case of the digits. -/
def Obligations.HexRoundTripNormalisesCase : Prop :=
  ∀ str : List Byte, str ≠ [] →
    (∀ c ∈ str, (0x30 ≤ c.toNat ∧ c.toNat ≤ 0x39) ∨ (0x41 ≤ c.toNat ∧ c.toNat ≤ 0x46) ∨ (0x61 ≤ c.toNat ∧ c.toNat ≤ 0x66)) →
    ∃ bin, Sys2Proof.Machine.hex2bin str = .ok bin ∧
      Sys2Proof.Machine.bin2hex (binArrayFromBinStr bin)
        = str.map fun c => if 0x41 ≤ c.toNat ∧ c.toNat ≤ 0x46 then c + 0x20 else c

/-- R125, R126: bytes to bits, most significant bit first, and back. -/
def Obligations.BytesAndBitsAreInverse : Prop :=
  (∀ (bs : List Byte) (j i : Nat) (b : Byte), bs[j]? = some b → i < 8 →
      (bytes2bits bs)[8 * j + i]? = some (b.getLsbD (7 - i))) ∧
  (∀ bs : List Byte, (bytes2bits bs).length = 8 * bs.length ∧ bits2bytes (bytes2bits bs) = bs) ∧
  (∀ bits : List Bool, bits.length % 8 = 0 → bytes2bits (bits2bytes bits) = bits)

/-! ### FEC -/

/-- R143 (with the equations of R140): FEC.ENC answers the code word and reads and writes no other state. -/
def Obligations.FecEncAnswersTheCodeWord : Prop :=
  ∀ (o : Operands) (s : State), formNibble o = true →
    (s.cfgValid = false → refuses .notConfigured (.fecEnc o) s) ∧
    (s.cfgValid = true → exec (.fecEnc o) s = .next { s with resCode := .ok, resBuf := [codeWord o.a] })

/-- R145: FEC.DEC on every word: zero syndrome extracts, an odd number of ones flips the one position whose single error
has the word's syndrome and extracts, anything else is DoubleErrorDetected. -/
def Obligations.FecDecCorrectsBySyndrome : Prop :=
  ∀ (o : Operands) (s : State), formByte o = true →
    (s.cfgValid = false → refuses .notConfigured (.fecDec o) s) ∧
    (s.cfgValid = true → wordSyndrome o.a = [false, false, false, false] →
      exec (.fecDec o) s = .next { s with resCode := .ok, resBuf := [wordMessage o.a] }) ∧
    (s.cfgValid = true → wordParity o.a = true →
      ∃ j < 8, wordSyndrome (flipWord 0 j) = wordSyndrome o.a ∧
        exec (.fecDec o) s = .next { s with resCode := .ok, resBuf := [wordMessage (flipWord o.a j)] }) ∧
    (s.cfgValid = true → wordSyndrome o.a ≠ [false, false, false, false] → wordParity o.a = false →
      refuses .doubleErrorDetected (.fecDec o) s)

/-- R146: no error and every single error decode to the message; every two errors are detected. -/
def Obligations.FecCorrectsOneAndDetectsTwo : Prop :=
  ∀ (m : Byte) (s : State), m.toNat < 16 → s.cfgValid = true →
    let dec := fun (w : Byte) => exec (.fecDec { flags := 0, a := w, b := 0, payload := [] }) s
    dec (codeWord m) = .next { s with resCode := .ok, resBuf := [m] } ∧
    (∀ i < 8, dec (flipWord (codeWord m) i) = .next { s with resCode := .ok, resBuf := [m] }) ∧
    (∀ i < 8, ∀ j < 8, i ≠ j →
      dec (flipWord (flipWord (codeWord m) i) j) = .next { s with resCode := .doubleErrorDetected, resBuf := [] })

/-- R148, R149: the stream forms: decoding inverts encoding, and one double error in any group fails the whole call. -/
def Obligations.FecStreamsAreInverse : Prop :=
  (∀ bits : List Bool, bits.length % 4 = 0 →
    (fecEncStream bits).length = 2 * bits.length ∧ fecDecStream (fecEncStream bits) = some bits) ∧
  (∀ before group after : List Bool, before.length % 8 = 0 → group.length = 8 → after.length % 8 = 0 →
    fecDecBits group = none → fecDecStream (before ++ group ++ after) = none)

/-! ### The Frame codec -/

/-- R230, R231, R232, R235, R236: FRM.BUILD's answer and errors, in their order. Of a checksum that no byte can carry, which
the default CH_MAX excludes, nothing is said (log 30). -/
def Obligations.FrmBuildAnswersTheWireBytes : Prop :=
  ∀ (o : Operands) (s : State), formCmdData o = true →
    (s.cfgValid = false → refuses .notConfigured (.frmBuild o) s) ∧
    (s.cfgValid = true → opCV o = false → refuses .missingCommand (.frmBuild o) s) ∧
    (s.cfgValid = true → opCV o = true → o.b = STX → (opDV o = false ∨ o.payload = []) →
      refuses .missingData (.frmBuild o) s) ∧
    (s.cfgValid = true → opCV o = true → o.b = STX → opDV o = true → 127 < o.payload.length →
      refuses .dataTooLarge (.frmBuild o) s) ∧
    (s.cfgValid = true → opCV o = true → o.b = STX → opDV o = true → o.payload ≠ [] → o.payload.length ≤ 127 →
      let d := frmPad s.cfg.nCh o.payload
      ∃ sum : Byte, (d.length + 6 < 256 → sum = BitVec.ofNat 8 (d.length + 6)) ∧
        exec (.frmBuild o) s = .next { s with
          resCode := .ok
          resBuf := [0x01, o.a, 0x02] ++ d ++ [0x03, sum, 0x04] }) ∧
    (s.cfgValid = true → opCV o = true → o.b ≠ STX →
      exec (.frmBuild o) s = .next { s with resCode := .ok, resBuf := [0x01, o.a, o.b, 0x05, 0x04] })

/-- R128, R129, R234: the three paddings append zeros up to the first length that fits (fewer than n bits); a Frame's data is
never padded for up to 16 channels. -/
def Obligations.PaddingStopsAtTheFirstFit : Prop :=
  (∀ (bits : List Bool) (n k : Nat), 0 < n →
    (∃ z < n, padBits bits n k = bits ++ List.replicate z false ∧ k * (bits.length + z) % n = 0 ∧
      ∀ y < z, k * (bits.length + y) % n ≠ 0) ∧
    (∃ z < n, fillSlot bits n = bits ++ List.replicate z false ∧ (bits.length + z) % n = 0 ∧
      ∀ y < z, (bits.length + y) % n ≠ 0)) ∧
  (∀ (n : Nat) (data : List Byte), 0 < n →
    ∃ z, frmPad n data = data ++ List.replicate z 0x00 ∧ 2 * 8 * (data.length + z + 6) % n = 0 ∧
      ∀ y < z, 2 * 8 * (data.length + y + 6) % n ≠ 0) ∧
  (∀ (k : Nat) (data : List Byte), k ≤ 4 → frmPad (2 ^ k) data = data)

/-- R240 (the record of R99): FRM.PARSE always succeeds as an operation and writes nothing but its answer. Of a length byte
for more than 255 bytes nothing is said (log 30). -/
def Obligations.FrmParseAnswersTheRecord : Prop :=
  ∃ lenByte : Nat → Byte, (∀ k < 256, lenByte k = BitVec.ofNat 8 k) ∧ ∀ (o : Operands) (s : State), formParse o = true →
    (s.cfgValid = false → refuses .notConfigured (.frmParse o) s) ∧
    (s.cfgValid = true →
      let r := Sys2Proof.Machine.frmParse o.payload s.cfg.nCh (if o.flags.getLsbD 2 then some o.a else none)
      exec (.frmParse o) s = .next { s with
        resCode := .ok
        resBuf := parserResultCode r.2.1 :: addrCheckCode r.2.2 ::
          match r.1 with
          | none => [0]
          | some f => 1 :: f.receiverAddress :: f.command :: f.checksum ::
            match f.data with
            | none => [0, 0]
            | some d => 1 :: lenByte d.length :: d })

/-- R247 (the rows of its table; R241, R243 to R246, R250): the parser's result, row by row. Of a checksum that no byte can
carry nothing is said (log 30). -/
def Obligations.FrmParseFollowsTheTable : Prop :=
  ∃ sumByte : Nat → Byte, (∀ k < 256, sumByte k = BitVec.ofNat 8 k) ∧ ∀ (n : Nat) (dev : Option Byte),
    let early : AddrCheck := if dev = none then .ok else .otherRecipient
    let check : Byte → AddrCheck := fun a =>
      if dev = none then .ok else if a = 0xFF then .broadcast else if dev = some a then .ok else .otherRecipient
    (∀ bs : List Byte, bs.length < 5 →
      Sys2Proof.Machine.frmParse bs n dev = (none, .incorrectFrameLength, early)) ∧
    (∀ (b0 : Byte) (rest : List Byte), 4 ≤ rest.length → b0 ≠ 0x01 →
      Sys2Proof.Machine.frmParse (b0 :: rest) n dev = (none, .startByteNotFound, early)) ∧
    (∀ (a : Byte) (rest : List Byte), 3 ≤ rest.length → check a = .otherRecipient →
      Sys2Proof.Machine.frmParse (0x01 :: a :: rest) n dev = (none, .otherRecipient, .otherRecipient)) ∧
    (∀ (a cmd : Byte) (rest : List Byte), check a ≠ .otherRecipient → cmd ≠ 0x02 → 2 < rest.length →
      Sys2Proof.Machine.frmParse (0x01 :: a :: cmd :: rest) n dev = (none, .incorrectFrameLength, check a)) ∧
    (∀ a cmd sum last : Byte, check a ≠ .otherRecipient → cmd ≠ 0x02 →
      Sys2Proof.Machine.frmParse [0x01, a, cmd, sum, last] n dev =
        if sum = 0x05 then
          (some { receiverAddress := a, command := cmd, data := none, checksum := 0x05 }, .parsingOk, check a)
        else (none, .checksumIncorrect, check a)) ∧
    (∀ (a : Byte) (rest : List Byte), check a ≠ .otherRecipient → 2 ≤ rest.length → 0x03 ∉ rest →
      Sys2Proof.Machine.frmParse (0x01 :: a :: 0x02 :: rest) n dev = (none, .frameBuildError, check a)) ∧
    (∀ (a : Byte) (data rest : List Byte), check a ≠ .otherRecipient → 2 ≤ (data ++ 0x03 :: rest).length → 0x03 ∉ data →
      let bs := 0x01 :: a :: 0x02 :: (data ++ 0x03 :: rest)
      let d := frmPad n data
      Sys2Proof.Machine.frmParse bs n dev =
        if data = [] ∨ 127 < data.length then (none, .frameBuildError, check a)
        else if bs[bs.length - 2]? = some (sumByte (d.length + 6)) then
          (some { receiverAddress := a, command := 0x02, data := some d, checksum := sumByte (d.length + 6) },
            .parsingOk, check a)
        else (none, .checksumIncorrect, check a))

/-- R249: parsing a built Frame gives it back, for data without an ETX byte and up to 16 channels; where the data holds an
ETX the result is ChecksumIncorrect, or FrameBuildError when it stands first; command-only Frames always come back. -/
def Obligations.ParseInvertsBuild : Prop :=
  ∀ (k : Nat) (addr : Byte), k ≤ 4 →
    (∀ data : List Byte, data ≠ [] → data.length ≤ 127 →
      ∃ f, Sys2Proof.Machine.frmBuild (2 ^ k) addr (some STX) (some data) = .ok f ∧ f.data = some data ∧
        (ETX ∉ data →
          Sys2Proof.Machine.frmParse (frmSerialize f) (2 ^ k) none = (some f, .parsingOk, .ok) ∧
          Sys2Proof.Machine.frmParse (frmSerialize f) (2 ^ k) (some addr)
            = (some f, .parsingOk, if addr = BROADCAST then .broadcast else .ok)) ∧
        (ETX ∈ data →
          Sys2Proof.Machine.frmParse (frmSerialize f) (2 ^ k) none
            = (none, if data.head? = some ETX then .frameBuildError else .checksumIncorrect, .ok))) ∧
    (∀ cmd : Byte, cmd ≠ STX →
      ∃ f, Sys2Proof.Machine.frmBuild (2 ^ k) addr (some cmd) none = .ok f ∧
        Sys2Proof.Machine.frmParse (frmSerialize f) (2 ^ k) none = (some f, .parsingOk, .ok))

/-! ### The tone modulator -/

/-- R170 (with R172): ENC.LDHEX stores the string as it is. -/
def Obligations.EncLdhexStoresTheString : Prop :=
  ∀ (o : Operands) (s : State), formPayload o = true → o.payload.length ≤ s.params.hexMax →
    (s.cfgValid = false → refuses .notConfigured (.encLdhex o) s) ∧
    (s.cfgValid = true → s.cfg.role ≠ .standalone → refuses .wrongRole (.encLdhex o) s) ∧
    (s.cfgValid = true → s.cfg.role = .standalone → s.cfg.mode ≠ .simple → refuses .wrongMode (.encLdhex o) s) ∧
    (s.cfgValid = true → s.cfg.role = .standalone → s.cfg.mode = .simple → s.enc.phase = .transmitting →
      refuses .busy (.encLdhex o) s) ∧
    (s.cfgValid = true → s.cfg.role = .standalone → s.cfg.mode = .simple → s.enc.phase = .idle →
      exec (.encLdhex o) s = .next { s with
        enc := { s.enc with hex := some o.payload }, resCode := .ok, resBuf := [] })

/-- R171 (with R172): ENC.LDFRM stores the Frame it builds; a build error is returned and changes nothing. -/
def Obligations.EncLdfrmStoresTheFrame : Prop :=
  ∀ (o : Operands) (s : State), formCmdData o = true →
    let built := Sys2Proof.Machine.frmBuild s.cfg.nCh o.a (if o.flags.getLsbD 0 then some o.b else none)
      (if o.flags.getLsbD 1 then some o.payload else none)
    (s.cfgValid = false → refuses .notConfigured (.encLdfrm o) s) ∧
    (s.cfgValid = true → s.cfg.role ≠ .standalone → refuses .wrongRole (.encLdfrm o) s) ∧
    (s.cfgValid = true → s.cfg.role = .standalone → s.cfg.mode ≠ .dataFrame → refuses .wrongMode (.encLdfrm o) s) ∧
    (s.cfgValid = true → s.cfg.role = .standalone → s.cfg.mode = .dataFrame → s.enc.phase = .transmitting →
      refuses .busy (.encLdfrm o) s) ∧
    (s.cfgValid = true → s.cfg.role = .standalone → s.cfg.mode = .dataFrame → s.enc.phase = .idle →
      (∀ e, built = .error e → refuses e (.encLdfrm o) s) ∧
      (∀ f, built = .ok f →
        exec (.encLdfrm o) s = .next { s with enc := { s.enc with frm := some f }, resCode := .ok, resBuf := [] }))

/-- R173 to R176 and R172: ENC.RUN puts the coded bitstream into ENC_BITS and the encoder transmits; HOST waits (R81) for the
one response (R93), which EncoderPushStep gives it, so RES_CODE and RES_BUF keep their values (log 14). InvalidHexData
and NoPending are recorded in ENC_ERR (shown in LERR, log 13) and emit LogSendFailed; that NoPending does so is the model's
reading, R173 before R321 (log 16). -/
def Obligations.EncRunStartsTheTransmission : Prop :=
  ∀ (o : Operands) (s : State), formPlain o = true →
    let coded := fun bits => fillSlot (if s.cfg.secdedEn then fecEncStream bits else bits) s.cfg.nCh
    let starts := fun bits => exec (.encRun o) s = .next { s with
      enc := { s.enc with bits := coded bits, slot := 0, err := .ok, phase := .transmitting }, hostWait := true }
    let fails := fun e => exec (.encRun o) s = .next { s with
      enc := { s.enc with err := e }, lerr := e, evt := s.evt ++ [.logSendFailed e], resCode := e, resBuf := [] }
    (s.cfgValid = false → refuses .notConfigured (.encRun o) s) ∧
    (s.cfgValid = true → s.cfg.role ≠ .standalone → refuses .wrongRole (.encRun o) s) ∧
    (s.cfgValid = true → s.cfg.role = .standalone → s.enc.phase = .transmitting → refuses .busy (.encRun o) s) ∧
    (s.cfgValid = true → s.cfg.role = .standalone → s.enc.phase = .idle →
      (s.cfg.mode = .simple → s.enc.hex = none → fails .invalidHexData) ∧
      (∀ h, s.cfg.mode = .simple → s.enc.hex = some h →
        (∀ e, Sys2Proof.Machine.hex2bin h = .error e → fails .invalidHexData) ∧
        (∀ bin, Sys2Proof.Machine.hex2bin h = .ok bin →
          starts (padBits (binArrayFromBinStr bin) s.cfg.nCh (if s.cfg.secdedEn then 2 else 1)))) ∧
      (s.cfg.mode = .dataFrame → s.enc.frm = none → fails .noPending) ∧
      (∀ f, s.cfg.mode = .dataFrame → s.enc.frm = some f → starts (bytes2bits (frmSerialize f))))

/-- R178, R179, R180, R329: one push step of ENC: the buffer it hands over, and the end of the run by completion or by a sink
error. The end releases a HOST that waits for its own run with the response (R81, R93; log 14); MASTER and SLAVE see it in
ENC_PHASE and ENC_ERR. LERR is the register of log 13. -/
def Obligations.EncoderPushStep : Prop :=
  ∀ (s : State) (turns : List Agent) (ok : Bool) (acks : List Bool),
    s.sched = .enc :: turns → s.enc.phase = .transmitting → s.snkIn = ok :: acks →
    let released := fun (e : ErrCode) (t : State) =>
      if s.hostWait = true then { t with hostWait := false, resCode := e, resBuf := [] } else t
    let count := s.enc.bits.length / s.cfg.nCh
    let buf := if s.enc.slot = 0 then s.rom.cal else if s.enc.slot ≤ count then mixSlot s (s.enc.slot - 1) else s.rom.cal
    (ok = false → step s = .next (released .ioError { s with
      sched := turns, snkIn := acks, snkOut := s.snkOut ++ [{ buf := buf, ok := false }]
      enc := { s.enc with phase := .idle, err := .ioError }, lerr := .ioError
      evt := s.evt ++ [.logIoError true, .logSendFailed .ioError] })) ∧
    (ok = true → s.enc.slot = count + 1 → step s = .next (released .ok { s with
      sched := turns, snkIn := acks, snkOut := s.snkOut ++ [{ buf := buf, ok := true }]
      enc := { s.enc with phase := .idle, err := .ok } })) ∧
    (ok = true → s.enc.slot < count + 1 → step s = .next { s with
      sched := turns, snkIn := acks, snkOut := s.snkOut ++ [{ buf := buf, ok := true }]
      enc := { s.enc with slot := s.enc.slot + 1 } })

/-- R178, R179, R112 (and R81, R93 for a waiting HOST: log 14): where the sink accepts every push, S + 2 turns of ENC hand
over exactly the calibration buffer, the S slots in order and the calibration buffer, and the run ends. -/
def Obligations.TransmissionPushesTheWholeRun : Prop :=
  ∀ (s : State) (turns : List Agent) (acks : List Bool),
    let count := s.enc.bits.length / s.cfg.nCh
    s.enc.phase = .transmitting → s.enc.slot = 0 → s.sched = List.replicate (count + 2) Agent.enc ++ turns →
    s.snkIn = List.replicate (count + 2) true ++ acks →
    ∃ t : State, Host.Core.run Sys2Proof.core (count + 2) s = .next t ∧
      t.enc.phase = .idle ∧ t.enc.err = .ok ∧ t.enc.hex = s.enc.hex ∧ t.enc.frm = s.enc.frm ∧
      t.snkOut = s.snkOut ++
        ([s.rom.cal] ++ (List.range count).map (mixSlot s) ++ [s.rom.cal]).map (fun buf => { buf := buf, ok := true }) ∧
      t.sched = turns ∧ t.snkIn = acks ∧ t.evt = s.evt ∧ t.dec = s.dec ∧ t.hslot = s.hslot ∧ t.mst = s.mst ∧ t.slv = s.slv ∧
      (s.hostWait = true → t.hostWait = false ∧ t.resCode = .ok ∧ t.resBuf = [])

/-- R177 (with R63, R161 to R165, and the named properties of the sine, log 8): a slot buffer has N_ENC samples; lane i plays
the tone of the bit it carries, ENC_BITS[slot * n + i], and sample k is the lanes' sum divided by n, quantised; so the
buffer is silent outside the sounding segment and no sample clips. -/
def Obligations.SlotsAreSilentOutsideTheSound : Prop :=
  ∀ (s : State) (slot : Nat), ConfigInv s → s.cfgValid = true →
    (mixSlot s slot).length = s.rom.nEnc ∧ s.rom.nBrk + s.rom.nAct ≤ s.rom.nEnc ∧
    (∀ k < s.rom.nEnc, k < s.rom.nBrk ∨ s.rom.nBrk + s.rom.nAct ≤ k → (mixSlot s slot)[k]? = some 0) ∧
    (∀ k < s.rom.nEnc, |mixSum s slot k / s.cfg.nCh| ≤ 1) ∧
    (∀ bit : Nat → Bool, (∀ i < s.cfg.nCh, s.enc.bits[slot * s.cfg.nCh + i]? = some (bit i)) →
      let lane := fun (k i : Nat) =>
        toneValue s.cfg s.rom (s.cfg.firstFreq + (if bit i then s.cfg.freqStep else 0) + i * 2 * s.cfg.freqStep) k
      ∀ k < s.rom.nEnc, ∃ v, (mixSlot s slot)[k]? = some v ∧
        v.toInt = quantised ((∑ i ∈ Finset.range s.cfg.nCh, lane k i) / s.cfg.nCh))

/-! ### The spectral demodulator -/

/-- R190, R191: DEC.START clears the decoder's dynamic state and the handoff slot and starts the loop; DEC.STOP only clears
DEC_RUN. -/
def Obligations.DecStartAndStop : Prop :=
  ∀ (o : Operands) (s : State), formPlain o = true →
    (s.cfgValid = false → refuses .notConfigured (.decStart o) s ∧ refuses .notConfigured (.decStop o) s) ∧
    (s.cfgValid = true → s.cfg.role ≠ .standalone → refuses .wrongRole (.decStart o) s ∧ refuses .wrongRole (.decStop o) s) ∧
    (s.cfgValid = true → s.cfg.role = .standalone →
      exec (.decStop o) s = .next { s with dec := { s.dec with run := false }, resCode := .ok, resBuf := [] }) ∧
    (s.cfgValid = true → s.cfg.role = .standalone → (s.cfg.nfftValid = false ∨ s.cfg.thrValid = false) →
      refuses .decoderUnavailable (.decStart o) s) ∧
    (s.cfgValid = true → s.cfg.role = .standalone → s.cfg.nfftValid = true → s.cfg.thrValid = true → s.dec.alive = true →
      refuses .busy (.decStart o) s) ∧
    (s.cfgValid = true → s.cfg.role = .standalone → s.cfg.nfftValid = true → s.cfg.thrValid = true → s.dec.alive = false →
      exec (.decStart o) s = .next { s with
        dec := { run := true, alive := true, phase := .top, frameBuf := s.dec.frameBuf, err := .ok,
                 old := List.replicate s.cfg.nCh 0, raw := [], msg := [], rxHex := [], rxBytes := [],
                 eot := false, ded := false, ovf := false }
        hslot := none, resCode := .ok, resBuf := [] })

/-- R216, R217 (the status byte of R99): the read-outs; only DEC.RDFRM changes state: it takes the handoff slot. -/
def Obligations.DecReadOuts : Prop :=
  ∀ (o : Operands) (s : State), formPlain o = true →
    (s.cfgValid = false → refuses .notConfigured (.decRdhex o) s ∧ refuses .notConfigured (.decRdfrm o) s) ∧
    (s.cfgValid = true → s.cfg.mode ≠ .simple → refuses .wrongMode (.decRdhex o) s) ∧
    (s.cfgValid = true → s.cfg.mode = .simple →
      exec (.decRdhex o) s = .next { s with resCode := .ok, resBuf := s.dec.rxHex }) ∧
    (s.cfgValid = true → s.cfg.role ≠ .standalone → refuses .wrongRole (.decRdfrm o) s) ∧
    (s.cfgValid = true → s.cfg.role = .standalone → s.cfg.mode ≠ .dataFrame → refuses .wrongMode (.decRdfrm o) s) ∧
    (s.cfgValid = true → s.cfg.role = .standalone → s.cfg.mode = .dataFrame →
      exec (.decRdfrm o) s = .next { s with
        hslot := none, resCode := .ok
        resBuf := BitVec.ofNat 8 (s.dec.eot.toNat + 2 * (decide (s.hslot = some .sourceError)).toNat) :: s.dec.rxBytes })

/-- R193, R194, R215: the loop-top step of DEC: exit after a stop, a pulled audio frame, or a source error (a reply of the
wrong length is one). LERR is the register of log 13. -/
def Obligations.DecoderTopStep : Prop :=
  ∀ (s : State) (turns : List Agent), s.sched = .dec :: turns → s.dec.alive = true → s.dec.phase = .top →
    (s.dec.run = false → step s = .next { s with sched := turns, dec := { s.dec with alive := false } }) ∧
    (∀ (samples : List Sample) (more : List SrcReply), s.dec.run = true → s.srcIn = .ok samples :: more →
      samples.length = s.rom.nDec →
      step s = .next { s with
        sched := turns, srcIn := more, dec := { s.dec with frameBuf := samples, phase := .haveFrame } }) ∧
    (∀ (r : SrcReply) (more : List SrcReply), s.dec.run = true → s.srcIn = r :: more →
      (r = .err ∨ ∃ samples, r = .ok samples ∧ samples.length ≠ s.rom.nDec) →
      step s = .next { s with
        sched := turns, srcIn := more
        dec := { s.dec with err := .ioError, run := false, alive := false }
        hslot := some .sourceError, lerr := .ioError, evt := s.evt ++ [.logIoError false] })

/-- R195, R196, R198 to R201, R213: the loop-body step of DEC. Each channel's detected value is the frequency of the least bin
of greatest power in its window, if that power exceeds the threshold (R198 to R201; any sine and cosine, log 8); an
all-zero frame finds nothing and is no read event (R219 (a)); steps 5 to 8 follow on these values; the loop is back at its
top, and in DataFrame mode an end of transmission ends the loop and deposits RX_BYTES. Nothing is said of FRAME_BUF
afterwards, nor of the model's counter of free values (log 9). -/
def Obligations.DecoderBodyStep : Prop :=
  ∀ (s : State) (turns : List Agent), ConfigInv s → s.cfgValid = true → s.cfg.nfftValid = true →
    s.sched = .dec :: turns → s.dec.alive = true → s.dec.phase = .haveFrame →
    let x := fun (k : Nat) =>
      if k < s.rom.nDec then ((s.dec.frameBuf.getD k 0).toInt : Rat) / 32768 * s.rom.win.getD k 0 else 0
    let re := fun (m : Nat) => ∑ k ∈ Finset.range s.cfg.nfft, x k * numCos (2 * numPi * m * k / s.cfg.nfft)
    let im := fun (m : Nat) => -∑ k ∈ Finset.range s.cfg.nfft, x k * numSin (2 * numPi * m * k / s.cfg.nfft)
    let power := fun (m : Nat) => re m * re m + im m * im m
    ∃ (det : List (Option Rat)) (frame : List Sample) (free : Nat),
      det.length = s.cfg.nCh ∧
      (∀ i < s.cfg.nCh, ∃ lo hi peak, s.rom.kLo[i]? = some lo ∧ s.rom.kHi[i]? = some hi ∧ lo ≤ peak ∧ peak ≤ hi ∧
        (∀ m, lo ≤ m → m ≤ hi → power m ≤ power peak) ∧ (∀ m, lo ≤ m → m < peak → power m < power peak) ∧
        det[i]? = some (if s.cfg.threshold < power peak then some (peak * s.rom.deltaF) else none)) ∧
      ((∀ k < s.rom.nDec, s.dec.frameBuf.getD k 0 = 0) → 0 ≤ s.cfg.threshold →
        det = List.replicate s.cfg.nCh none ∧ readEvent s det = false) ∧
      let t := trackFrame det { s with sched := turns }
      (¬ (s.cfg.mode = .dataFrame ∧ t.dec.eot = true) →
        step s = .next { t with dec := { t.dec with phase := .top, frameBuf := frame }, free := free }) ∧
      (s.cfg.mode = .dataFrame → t.dec.eot = true →
        step s = .next { t with
          dec := { t.dec with phase := .top, frameBuf := frame, run := false, alive := false }
          hslot := some (.bytes t.dec.rxBytes), free := free })

/-- R202 to R204, R207, R208: steps 5 to 8 of the per-frame decode, for the detected values `det` of a frame: OLD is replaced
whole whenever a channel changed; a slot is read only from a frame with all channels found after one with a zero; it is
aborted when a value is near neither tone. -/
def Obligations.FrameTrackingFollowsTheSteps : Prop :=
  ∀ (s : State) (det : List (Option Rat)), det.length = s.cfg.nCh →
    let new := fun i => (det.getD i none).getD 0
    let changed := ∃ i < s.cfg.nCh, s.rom.deltaF < |new i - oldAt s.dec.old i|
    let found := ∀ d ∈ det, d ≠ none
    let zero := ∃ i < s.cfg.nCh, oldAt s.dec.old i = 0
    let replaced := det.map fun d => d.getD 0
    (¬ changed → trackFrame det s = s) ∧
    (changed → ¬ (found ∧ zero) → trackFrame det s = { s with dec := { s.dec with old := replaced } }) ∧
    (changed → found → zero →
      (∃ i < s.cfg.nCh, s.rom.deltaF < |new i - s.rom.low.getD i 0| ∧ s.rom.deltaF < |new i - s.rom.high.getD i 0|) →
      trackFrame det s = { s with dec := { s.dec with old := replaced } }) ∧
    (∀ bits : List Bool, changed → found → zero → bits.length = s.cfg.nCh →
      (∀ i < s.cfg.nCh,
        (|new i - s.rom.low.getD i 0| ≤ s.rom.deltaF ∧ bits[i]? = some false) ∨
        (s.rom.deltaF < |new i - s.rom.low.getD i 0| ∧ |new i - s.rom.high.getD i 0| ≤ s.rom.deltaF ∧
          bits[i]? = some true)) →
      trackFrame det s = decodeCycle { s with dec := { s.dec with old := replaced, raw := s.dec.raw ++ bits } })

/-- R204, R205: between any two read events, however many frames apart, there is a frame with a channel not found. (A found
value is never 0: R201.) -/
def Obligations.ReadEventsNeedABreak : Prop :=
  ∀ (s : State) (first last : List (Option Rat)) (between : List (List (Option Rat))),
    (∀ det ∈ first :: between, det.length = s.cfg.nCh ∧ some 0 ∉ det) →
    readEvent s first = true →
    readEvent ((first :: between).foldl (fun t det => trackFrame det t) s) last = true →
    ∃ det ∈ between, none ∈ det

/-- R209 to R212 and R214: the decode cycle: when it is due, what a double-bit error discards, and what decoded bits are
appended to; an append beyond a capacity is dropped and sets RX_OVF, and a dropped EOT byte still sets EOT_FLAG. That the
bits of a cycle are dropped whole from MSG, and its digits from RX_HEX, but bytes one by one from RX_BYTES is the model's
reading (log 17). -/
def Obligations.DecodeCycleAccumulates : Prop :=
  ∀ s : State,
    let raw := s.dec.raw
    let due := raw ≠ [] ∧ raw.length % s.cfg.nCh = 0 ∧ raw.length % 16 = 0
    let decoded := if s.cfg.secdedEn then fecDecStream raw else some raw
    (¬ due → decodeCycle s = s) ∧
    (due → decoded = none →
      decodeCycle s = { s with
        dec := { s.dec with raw := [], msg := [], rxHex := [], rxBytes := [], eot := false, ded := true }
        evt := s.evt ++ [.logDecodeError .doubleErrorDetected] }) ∧
    (∀ d, due → decoded = some d →
      let msgFits := s.dec.msg.length + d.length ≤ 8 * s.params.rxMax
      let msg := if msgFits then s.dec.msg ++ d else s.dec.msg
      (s.cfg.mode = .simple →
        let digits := Sys2Proof.Machine.bin2hex d
        let hexFits := s.dec.rxHex.length + digits.length ≤ s.params.rxMax
        decodeCycle s = { s with dec := { s.dec with
          raw := [], msg := msg, rxHex := if hexFits then s.dec.rxHex ++ digits else s.dec.rxHex
          ovf := s.dec.ovf || !decide msgFits || !decide hexFits } }) ∧
      (s.cfg.mode = .dataFrame →
        let bytes := bits2bytes d
        let kept := if s.dec.eot = true then []
          else if EOT ∈ bytes then bytes.takeWhile (fun b => b != EOT) ++ [EOT] else bytes
        let room := s.params.rxMax - s.dec.rxBytes.length
        decodeCycle s = { s with dec := { s.dec with
          raw := [], msg := msg, rxBytes := s.dec.rxBytes ++ kept.take room, eot := s.dec.eot || decide (EOT ∈ bytes)
          ovf := s.dec.ovf || !decide msgFits || decide (room < kept.length) } }))

/-- R74: HSLOT comes to hold a result only by a step of DEC, in the step in which it clears DEC_ALIVE; the result is
RX_BYTES or a source error. -/
def Obligations.HandoffIsWrittenOnExit : Prop :=
  ∀ s t : State, step s = .next t → t.hslot ≠ s.hslot → t.hslot ≠ none →
    (takeTurn s).1 = .dec ∧ s.dec.alive = true ∧ t.dec.alive = false ∧
      (t.hslot = some (.bytes t.dec.rxBytes) ∨ t.hslot = some .sourceError)

/-! ### The master -/

/-- R261, R262: M.SEND and M.SENDBC queue an action of depth one. -/
def Obligations.MasterSendsQueueOneAction : Prop :=
  ∀ (i : Instr) (o : Operands) (s : State) (act : Action),
    let cmd := if o.flags.getLsbD 0 then some o.b else none
    let data := if o.flags.getLsbD 1 then some o.payload else none
    (i = .mSend o ∧ formCmdData o = true ∧ act = { addr := o.a, cmd := cmd, data := data, bc := decide (o.a = 0xFF) }) ∨
      (i = .mSendbc o ∧ formBroadcast o = true ∧ act = { addr := 0xFF, cmd := cmd, data := data, bc := true }) →
    (s.cfgValid = false → refuses .notConfigured i s) ∧
    (s.cfgValid = true → s.cfg.role ≠ .master → refuses .wrongRole i s) ∧
    (s.cfgValid = true → s.cfg.role = .master → (s.mst.pend ≠ none ∨ s.mst.state ≠ .idle ∨ s.mst.stopReq = true) →
      refuses .busy i s) ∧
    (s.cfgValid = true → s.cfg.role = .master → s.mst.pend = none → s.mst.state = .idle → s.mst.stopReq = false →
      exec i s = .next { s with mst := { s.mst with pend := some act }, resCode := .ok, resBuf := [] })

/-- R263, R264 and the operation of R265: M.IDLE answers whether nothing is pending or in flight, M.SETTO writes TIMEOUT_MS
(four big-endian bytes), M.STOP only requests. -/
def Obligations.MasterControlOperations : Prop :=
  ∀ (o : Operands) (s : State),
    (formPlain o = true → s.cfgValid = false → refuses .notConfigured (.mIdle o) s ∧ refuses .notConfigured (.mStop o) s) ∧
    (formPlain o = true → s.cfgValid = true → s.cfg.role ≠ .master →
      refuses .wrongRole (.mIdle o) s ∧ refuses .wrongRole (.mStop o) s) ∧
    (formPlain o = true → s.cfgValid = true → s.cfg.role = .master →
      exec (.mIdle o) s = .next { s with
        resCode := .ok, resBuf := if s.mst.state = .idle ∧ s.mst.pend = none then [0x01] else [0x00] } ∧
      exec (.mStop o) s = .next { s with mst := { s.mst with stopReq := true }, resCode := .ok, resBuf := [] }) ∧
    (formPayload o = true → o.payload.length ≠ 4 → refuses .badPacket (.mSetto o) s) ∧
    (∀ b3 b2 b1 b0 : Byte, formPayload o = true → o.payload = [b3, b2, b1, b0] →
      (s.cfgValid = false → refuses .notConfigured (.mSetto o) s) ∧
      (s.cfgValid = true → s.cfg.role ≠ .master → refuses .wrongRole (.mSetto o) s) ∧
      (s.cfgValid = true → s.cfg.role = .master →
        exec (.mSetto o) s = .next { s with timeoutMs := b3 ++ b2 ++ b1 ++ b0, resCode := .ok, resBuf := [] }))

/-- R266: at most one of the master's nine steps is enabled in any state; a turn of MASTER takes it, and changes nothing when
none is enabled. -/
def Obligations.MasterStepsAreExclusive : Prop :=
  ∀ s : State, s.cfgValid = true → s.cfg.role = .master →
    (∀ j k, mGuard s j = true → mGuard s k = true → j = k) ∧
    (∀ k, mGuard s k = true → agentTurn .master s = mRun k s) ∧
    ((∀ k, mGuard s k = false) → agentTurn .master s = .next s)

/-- R267, R268, R276: the master's steps m1 to m4. LERR is the register of log 13. -/
def Obligations.MasterPicksUpAndTransmits : Prop :=
  ∀ s : State, s.cfgValid = true → s.cfg.role = .master → s.cfg.mode = .dataFrame →
    (s.mst.state = .idle → s.mst.stopReq = true →
      agentTurn .master s = .next { s with mst := { s.mst with pend := none, stopReq := false } }) ∧
    (∀ act, s.mst.state = .idle → s.mst.stopReq = false → s.mst.pend = some act →
      agentTurn .master s = .next { s with
        mst := { s.mst with last := some act, pend := none, retries := 0, err := .ok, state := .sending } }) ∧
    (s.mst.state = .sending → s.mst.txWait = false → s.mst.stopReq = true →
      agentTurn .master s = .next { s with mst := { s.mst with state := .idle, pend := none, stopReq := false } }) ∧
    (∀ act, s.mst.state = .sending → s.mst.txWait = false → s.mst.stopReq = false → s.mst.last = some act →
      let built := Sys2Proof.Machine.frmBuild s.cfg.nCh act.addr act.cmd act.data
      (∀ e, built = .error e →
        agentTurn .master s = .next { s with
          mst := { s.mst with err := e, state := .idle }, lerr := e, evt := s.evt ++ [.logSendFailed e] }) ∧
      (∀ f, built = .ok f →
        let bits := bytes2bits (frmSerialize f)
        agentTurn .master s = .next { s with
          enc := { s.enc with
            frm := some f
            bits := fillSlot (if s.cfg.secdedEn then fecEncStream bits else bits) s.cfg.nCh
            slot := 0, err := .ok, phase := .transmitting }
          mst := { s.mst with txWait := true } }))

/-- R269, R270, R275: the master's step m5: a sink error is retried, a broadcast is over, a unicast starts the decoder and
awaits its response from now on. -/
def Obligations.MasterEndsItsTransmission : Prop :=
  ∀ (s : State) (act : Action), s.cfgValid = true → s.cfg.role = .master → s.mst.last = some act →
    s.mst.state = .sending → s.mst.txWait = true → s.enc.phase = .idle →
    let more := BitVec.ofNat 32 (min (s.mst.retries.toNat + 1) (2 ^ 32 - 1))
    (s.enc.err = .ioError →
      agentTurn .master s = .next { s with
        mst := { s.mst with txWait := false, retries := more }, evt := s.evt ++ [.logRetry more] }) ∧
    (s.enc.err ≠ .ioError → act.bc = true →
      agentTurn .master s = .next { s with
        mst := { s.mst with txWait := false, state := .idle }, evt := s.evt ++ [.logFrameSent act.addr act.cmd] }) ∧
    (s.enc.err ≠ .ioError → act.bc = false →
      agentTurn .master s = .next { s with
        mst := { s.mst with txWait := false, t0 := s.now, tmo := false, state := .awaitingResponse }
        evt := s.evt ++ [.logFrameSent act.addr act.cmd]
        dec := { run := true, alive := true, phase := .top, frameBuf := s.dec.frameBuf, err := .ok,
                 old := List.replicate s.cfg.nCh 0, raw := [], msg := [], rxHex := [], rxBytes := [],
                 eot := false, ded := false, ovf := false }
        hslot := none })

/-- R271, R275, R113: what the master does with a received Frame, by its command byte and its address: an ACK to 0x00 or
0xFF confirms, every other Frame is retried, a NAK logged first. -/
def Obligations.MasterActsOnReceivedFrames : Prop :=
  ∀ (s : State) (addr cmd : Byte) (data : List Byte), s.cfgValid = true → s.cfg.role = .master → cmd ≠ STX → cmd ≠ ACK →
    cmd ≠ NAK →
    let more := BitVec.ofNat 32 (min (s.mst.retries.toNat + 1) (2 ^ 32 - 1))
    let retried := fun (log : List Event) => Host.Outcome.next (φ := Fault) (ρ := Refusal) { s with
      mst := { s.mst with retries := more, state := .sending }, evt := s.evt ++ log ++ [.logRetry more] }
    let check : AddrCheck := if addr = 0xFF then .broadcast else .ok
    (addr = 0x00 ∨ addr = 0xFF →
      exec (.ack addr) s = .next { s with
        mst := { s.mst with state := .idle }
        evt := s.evt ++ [.logParseResult .parsingOk check, .logAckReceived, .onTransmissionConfirmed] } ∧
      exec (.nak addr) s = retried [.logParseResult .parsingOk check, .logNakReceived] ∧
      exec (.stx addr data) s = retried [.logParseResult .parsingOk check] ∧
      exec (.cmdOther addr cmd) s = retried [.logParseResult .parsingOk check]) ∧
    (addr ≠ 0x00 → addr ≠ 0xFF →
      ∀ i ∈ [Instr.ack addr, .nak addr, .stx addr data, .cmdOther addr cmd],
        exec i s = retried [.logParseResult .otherRecipient .otherRecipient])

/-- R271 (its other results): a source error and bytes that are no Frame are taken from HSLOT and retried, the parser's
verdict reported. -/
def Obligations.MasterRetriesBadReceptions : Prop :=
  ∀ (s : State) (r : TransmissionResult), s.cfgValid = true → s.cfg.role = .master →
    s.mst.state = .awaitingResponse → s.mst.tmo = false → s.hslot = some r →
    let more := BitVec.ofNat 32 (min (s.mst.retries.toNat + 1) (2 ^ 32 - 1))
    (r = .sourceError →
      agentTurn .master s = .next { s with
        hslot := none, mst := { s.mst with retries := more, state := .sending }, evt := s.evt ++ [.logRetry more] }) ∧
    (∀ bs pr ac, r = .bytes bs → Sys2Proof.Machine.frmParse bs s.cfg.nCh (some 0x00) = (none, pr, ac) →
      agentTurn .master s = .next { s with
        hslot := none, mst := { s.mst with retries := more, state := .sending }
        evt := s.evt ++ [.logParseResult pr ac, .logRetry more] })

/-- R272, R273, R274, R276: the timeout, the stop while awaiting, and the join barrier before the retry or the abandonment;
with TIMEOUT_MS = 0 and no stop request the master waits. -/
def Obligations.MasterTimesOutThroughTheJoin : Prop :=
  ∀ s : State, s.cfgValid = true → s.cfg.role = .master → s.mst.state = .awaitingResponse →
    let more := BitVec.ofNat 32 (min (s.mst.retries.toNat + 1) (2 ^ 32 - 1))
    let late := s.timeoutMs ≠ 0 ∧ s.timeoutMs.toNat ≤ (s.now - s.mst.t0).toNat
    (s.mst.tmo = false → s.hslot = none → (s.mst.stopReq = true ∨ late) →
      agentTurn .master s = .next { s with dec := { s.dec with run := false }, mst := { s.mst with tmo := true } }) ∧
    (s.mst.tmo = false → s.hslot = none → s.mst.stopReq = false → ¬ late → agentTurn .master s = .next s) ∧
    (s.mst.tmo = true → s.dec.alive = true → agentTurn .master s = .next s) ∧
    (s.mst.tmo = true → s.dec.alive = false → s.mst.stopReq = true →
      agentTurn .master s = .next { s with
        hslot := none, mst := { s.mst with tmo := false, state := .idle, pend := none, stopReq := false } }) ∧
    (s.mst.tmo = true → s.dec.alive = false → s.mst.stopReq = false →
      agentTurn .master s = .next { s with
        hslot := none, mst := { s.mst with tmo := false, retries := more, state := .sending }
        evt := s.evt ++ [.onTransmissionTimedOut, .logRetry more] })

/-- R278, R275, R268: while an action is in flight M_LAST changes only by a reset, and any two transmissions of the same
action by the same configuration put the same bits into ENC_BITS. -/
def Obligations.RetriesSendTheSameFrame : Prop :=
  (∀ s t : State, step s = .next t → s.mst.state ≠ .idle → t.mst.last = s.mst.last ∨ AtReset t) ∧
  (∀ s s' t t' : State, agentTurn .master s = .next t → agentTurn .master s' = .next t' →
    s.cfgValid = true → s.cfg.role = .master → s.cfg.mode = .dataFrame → s'.cfgValid = true → s'.cfg = s.cfg →
    s.mst.state = .sending → s.mst.txWait = false → s'.mst.state = .sending → s'.mst.txWait = false →
    s'.mst.last = s.mst.last → t.mst.txWait = true → t'.mst.txWait = true →
    t.enc.bits = t'.enc.bits ∧ t.enc.frm = t'.enc.frm ∧ t.enc.slot = 0 ∧ t'.enc.slot = 0)

/-! ### The slave -/

/-- R282 and the operation of R283: S.START and S.STOP write S_RUN and nothing else. -/
def Obligations.SlaveControlOperations : Prop :=
  ∀ (o : Operands) (s : State), formPlain o = true →
    (s.cfgValid = false → refuses .notConfigured (.sStart o) s ∧ refuses .notConfigured (.sStop o) s) ∧
    (s.cfgValid = true → s.cfg.role ≠ .slave → refuses .wrongRole (.sStart o) s ∧ refuses .wrongRole (.sStop o) s) ∧
    (s.cfgValid = true → s.cfg.role = .slave →
      exec (.sStart o) s = .next { s with slv := { s.slv with run := true }, resCode := .ok, resBuf := [] } ∧
      exec (.sStop o) s = .next { s with slv := { s.slv with run := false }, resCode := .ok, resBuf := [] })

/-- R285, R286, R289, R290: the slave's steps s1, s2, s3, s5, s6 and its three waits: while its own transmission lasts, while
Idle with nothing to reply and S_RUN = 0, and in Receiving while its decoder lives (in the states of the decoder's
invariant, which rules out a set DEC_RUN without DEC_ALIVE). -/
def Obligations.SlaveListensAndReplies : Prop :=
  ∀ s : State, s.cfgValid = true → s.cfg.role = .slave → s.cfg.mode = .dataFrame → (s.dec.run = true → s.dec.alive = true) →
    (∀ c, s.slv.state = .idle → s.slv.txWait = false → s.slv.reply = some c → c ≠ STX →
      let bits := bytes2bits [0x01, 0x00, c, 0x05, 0x04]
      agentTurn .slave s = .next { s with
        enc := { s.enc with
          frm := some { receiverAddress := 0x00, command := c, data := none, checksum := 5 }
          bits := fillSlot (if s.cfg.secdedEn then fecEncStream bits else bits) s.cfg.nCh
          slot := 0, err := .ok, phase := .transmitting }
        slv := { s.slv with txWait := true } }) ∧
    (s.slv.state = .idle → s.slv.txWait = false → s.slv.reply = none → s.slv.run = true →
      agentTurn .slave s = .next { s with
        dec := { run := true, alive := true, phase := .top, frameBuf := s.dec.frameBuf, err := .ok,
                 old := List.replicate s.cfg.nCh 0, raw := [], msg := [], rxHex := [], rxBytes := [],
                 eot := false, ded := false, ovf := false }
        hslot := none, slv := { s.slv with state := .receiving } }) ∧
    (s.slv.state = .idle → s.slv.txWait = true → s.enc.phase = .idle →
      agentTurn .slave s = .next { s with
        slv := { s.slv with txWait := false, reply := none }
        evt := s.evt ++ if s.enc.err = .ok then [.logFrameSent 0x00 s.slv.reply] else [] }) ∧
    (s.slv.state = .idle → s.slv.txWait = true → s.enc.phase = .transmitting → agentTurn .slave s = .next s) ∧
    (s.slv.state = .idle → s.slv.txWait = false → s.slv.reply = none → s.slv.run = false →
      agentTurn .slave s = .next s) ∧
    (s.slv.state = .receiving → s.hslot = none → s.slv.run = false → s.dec.run = true →
      agentTurn .slave s = .next { s with dec := { s.dec with run := false } }) ∧
    (s.slv.state = .receiving → s.hslot = none → s.dec.alive = false →
      agentTurn .slave s = .next { s with slv := { s.slv with state := .idle } }) ∧
    (s.slv.state = .receiving → s.hslot = none → s.dec.alive = true → (s.slv.run = true ∨ s.dec.run = false) →
      agentTurn .slave s = .next s)

/-- R287, R113: what the slave does with a received Frame: the callback, and ACK if the Frame is addressed to it and not
broadcast; a Frame for another device is ignored. -/
def Obligations.SlaveActsOnReceivedFrames : Prop :=
  ∀ (s : State) (addr cmd : Byte) (data : List Byte), s.cfgValid = true → s.cfg.role = .slave → cmd ≠ STX → cmd ≠ ACK →
    cmd ≠ NAK →
    (addr = 0xFF ∨ addr = s.cfg.devAddr →
      let delivered := fun (callback : Event) => Host.Outcome.next (φ := Fault) (ρ := Refusal) { s with
        evt := s.evt ++ [.logParseResult .parsingOk (if addr = 0xFF then .broadcast else .ok), callback]
        slv := { s.slv with state := .idle, reply := if addr = 0xFF then s.slv.reply else some ACK } }
      exec (.stx addr data) s = delivered (.onDataReceived data) ∧
      exec (.ack addr) s = delivered (.onCommandReceived 0x06) ∧
      exec (.nak addr) s = delivered (.onCommandReceived 0x15) ∧
      exec (.cmdOther addr cmd) s = delivered (.onCommandReceived cmd)) ∧
    (addr ≠ 0xFF → addr ≠ s.cfg.devAddr →
      ∀ i ∈ [Instr.ack addr, .nak addr, .stx addr data, .cmdOther addr cmd],
        exec i s = .next { s with
          evt := s.evt ++ [.logParseResult .otherRecipient .otherRecipient], slv := { s.slv with state := .idle } })

/-- R287 (its other results), R288: a source error is skipped; bytes that are no Frame are answered with NAK exactly when the
address check was Ok; and a slave that owed no reply owes one afterwards only to bytes that begin with SOH and its own
address. -/
def Obligations.SlaveAnswersOnlyItsAddress : Prop :=
  ∀ (s : State) (r : TransmissionResult), s.cfgValid = true → s.cfg.role = .slave → s.slv.state = .receiving →
    s.hslot = some r →
    (r = .sourceError →
      agentTurn .slave s = .next { s with hslot := none, slv := { s.slv with state := .idle } }) ∧
    (∀ bs pr ac, r = .bytes bs → Sys2Proof.Machine.frmParse bs s.cfg.nCh (some s.cfg.devAddr) = (none, pr, ac) →
      agentTurn .slave s = .next { s with
        hslot := none, evt := s.evt ++ [.logParseResult pr ac]
        slv := { s.slv with state := .idle, reply := if ac = .ok then some NAK else s.slv.reply } }) ∧
    (∀ bs t, r = .bytes bs → s.slv.reply = none → agentTurn .slave s = .next t → t.slv.reply ≠ none →
      5 ≤ bs.length ∧ bs[0]? = some 0x01 ∧ bs[1]? = some s.cfg.devAddr)

/-! ### Errors of host operations -/

/-- R96 (b), R324: a listed opcode with a malformed packet is BadPacket, whatever the state, and changes nothing else. Two of
the forms are the model's choice: that a `values` bit of the CFG record whose `given` bit is 0 makes it malformed (log 28),
and that a string of ENC.LDHEX longer than HEX_MAX is (log 20). -/
def Obligations.MalformedPacketsAreRefused : Prop :=
  (∀ (op : Byte) (o : Operands) (i : Instr) (s : State), hostInstr op o = some i → i.wellFormed = false →
    refuses .badPacket i s) ∧
  (∀ (o : Operands) (s : State), s.params.hexMax < o.payload.length → refuses .badPacket (.encLdhex o) s)

/-- R96 (a): a packet whose opcode is not listed is taken from the port and refused with BadOpcode; nothing else changes. -/
def Obligations.ReservedOpcodesAreRefused : Prop :=
  ∀ (s : State) (turns : List Agent) (op flags a b len : Byte) (rest : List Byte),
    op ∉ [0x01, 0x02, 0x03, 0x10, 0x11, 0x12, 0x18, 0x19, 0x20, 0x21, 0x22, 0x30, 0x31, 0x32, 0x33, 0x40, 0x41, 0x50, 0x51,
      0x52, 0x53, 0x54, 0x58, 0x59] →
    s.sched = .host :: turns → s.hostWait = false → s.hostIn = op :: flags :: a :: b :: len :: rest →
    len.toNat ≤ rest.length →
    step s = .next { s with sched := turns, hostIn := rest.drop len.toNat, resCode := .badOpcode, resBuf := [] }

/-- R316: while CFG_VALID = 0 every well-formed operation (for ENC.LDHEX: R170, R9) but CFG, RST and RDST is refused with
NotConfigured. -/
def Obligations.UnconfiguredOperationsAreRefused : Prop :=
  ∀ (op : Byte) (o : Operands) (i : Instr) (s : State), hostInstr op o = some i → op ∉ [0x01, 0x02, 0x03] →
    i.wellFormed = true → (∀ p, i = .encLdhex p → p.payload.length ≤ s.params.hexMax) → s.cfgValid = false →
    refuses .notConfigured i s

/-- R317: which operations each role accepts: in the wrong role WrongRole, in the right one never (the operation well-formed;
for ENC.LDHEX: R170, R9). -/
def Obligations.RolesAcceptTheirOperations : Prop :=
  ∀ (op : Byte) (o : Operands) (i : Instr) (s : State), hostInstr op o = some i → i.wellFormed = true →
    (∀ p, i = .encLdhex p → p.payload.length ≤ s.params.hexMax) → s.cfgValid = true →
    let needed : Option Role :=
      if op ∈ [0x20, 0x21, 0x22, 0x30, 0x31, 0x33] then some .standalone
      else if op ∈ [0x50, 0x51, 0x52, 0x53, 0x54] then some .master
      else if op ∈ [0x58, 0x59] then some .slave
      else none
    (∀ r, needed = some r → s.cfg.role ≠ r → refuses .wrongRole i s) ∧
    (needed = none ∨ needed = some s.cfg.role → s.resCode ≠ .wrongRole → ∀ t, exec i s = .next t → t.resCode ≠ .wrongRole)

/-! ### The step and the encodings -/

/-- R90, R92: a turn of HOST runs the instruction that the packet at the front of its port decodes to, with the packet's bytes
taken; while HOST waits for its own ENC.RUN nothing is taken (R81; log 14), nor before a whole packet has arrived (log 4). -/
def Obligations.StepRunsTheHostPacket : Prop :=
  ∀ (s : State) (turns : List Agent), s.sched = .host :: turns →
    (∀ i rest, s.hostWait = false → decodePacket s.hostIn = .ok (i, rest) →
      step s = exec i { s with sched := turns, hostIn := rest }) ∧
    (s.hostWait = true ∨ decodePacket s.hostIn = .error .incomplete → step s = .next { s with sched := turns })

/-- R271, R287: a turn of MASTER or SLAVE whose handoff slot holds a Frame for it runs the instruction the Frame's command
byte stands for, with the slot taken. -/
def Obligations.StepRunsTheReceivedFrame : Prop :=
  ∀ (s : State) (turns : List Agent) (bs : List Byte) (i : Instr), s.cfgValid = true → s.hslot = some (.bytes bs) →
    (s.sched = .master :: turns → s.cfg.role = .master → s.mst.state = .awaitingResponse → s.mst.tmo = false →
      decodeFrame s.cfg.nCh (some 0x00) bs = .ok i → step s = exec i { s with sched := turns, hslot := none }) ∧
    (s.sched = .slave :: turns → s.cfg.role = .slave → s.slv.state = .receiving →
      decodeFrame s.cfg.nCh (some s.cfg.devAddr) bs = .ok i → step s = exec i { s with sched := turns, hslot := none })

/-- R90 to R95, R102, R104: decoding inverts encoding: for every well-formed host operation, whatever bytes follow its packet;
and for every well-formed received command, for each channel count up to 16 and each device it is addressed to. -/
def Obligations.DecodeInvertsEncode : Prop :=
  (∀ (i : Instr) (op : Byte) (rest : List Byte), opcodeOf i = some op → i.wellFormed = true →
    decodePacket (encode i ++ rest) = .ok (i, rest)) ∧
  (∀ (k : Nat) (dev : Option Byte) (addr cmd : Byte) (data : List Byte), k ≤ 4 →
    checkAddress addr dev ≠ .otherRecipient →
    ∀ i ∈ [Instr.stx addr data, .ack addr, .nak addr, .cmdOther addr cmd], i.wellFormed = true →
      decodeFrame (2 ^ k) dev (encode i) = .ok i)

/-- R92, R90, R102, R113: packets and a Frame of spec/30_encoding.md, spec/45_device_transport.md and
spec/95_test_vectors.md decode to what they stand for. -/
def Obligations.SpecWordsDecode : Prop :=
  decodePacket [0x02, 0x00, 0x00, 0x00, 0x00] = .ok (.rst ⟨0, 0, 0, []⟩, []) ∧
  decodePacket [0x50, 0x03, 0x07, 0x02, 0x02, 0x68, 0x69] = .ok (.mSend ⟨0x03, 0x07, 0x02, [0x68, 0x69]⟩, []) ∧
  decodePacket [0x54, 0x00, 0x00, 0x00, 0x04, 0x00, 0x00, 0x03, 0xE8, 0x52] =
    .ok (.mSetto ⟨0, 0, 0, [0x00, 0x00, 0x03, 0xE8]⟩, [0x52]) ∧
  decodePacket [0x18, 0x00, 0x06, 0x00, 0x00] = .ok (.fecEnc ⟨0, 6, 0, []⟩, []) ∧
  decodePacket [0x20, 0x00, 0x00, 0x00, 0x02, 0x36, 0x43] = .ok (.encLdhex ⟨0, 0, 0, [0x36, 0x43]⟩, []) ∧
  decodePacket [0x58, 0x00, 0x00, 0x00, 0x00] = .ok (.sStart ⟨0, 0, 0, []⟩, []) ∧
  decodePacket [0x04, 0x00, 0x00, 0x00, 0x00] = .error (.badOpcode 0x04 []) ∧
  decodeFrame 16 (some 0x07) [0x01, 0x07, 0x02, 0x68, 0x69, 0x03, 0x08, 0x04] = .ok (.stx 0x07 [0x68, 0x69]) ∧
  decodeFrame 16 (some 0x00) [0x01, 0x00, 0x06, 0x05, 0x04] = .ok (.ack 0x00)

/-! ### The whole machine -/

/-- R50, R350: the state after reset holds the reset values and satisfies the invariant, for every device and for the one with
the default parameters (R9). -/
def Obligations.ResetSatisfiesTheInvariant : Prop :=
  (∀ (p : Params) (k : Nat), AtReset (State.resetWith p k) ∧ Inv (State.resetWith p k)) ∧
  AtReset State.reset ∧ Inv State.reset ∧
  State.reset.params = { chMax := 16, hexMax := 255, rxMax := 4096, timeoutDefaultMs := 20000, calFreq := 40 }

/-- The invariant of Safety.lean (R24, R73, R74, R78, R32, R214 and the sequencing rules it names) is kept by every step, from
every state that satisfies it. -/
def Obligations.StepKeepsTheInvariant : Prop := ∀ s t : State, Inv s → step s = .next t → Inv t

/-- R325: no error is fatal to the block: every step of every state ends in a next state. -/
def Obligations.NothingStopsTheBlock : Prop := ∀ s : State, safe (step s)

/-- R42, R43, R70, R351: the event trace and what crossed the sink are only appended to, and the clock never decreases, by any
step, reset included. -/
def Obligations.TraceAndClockOnlyGrow : Prop :=
  ∀ s t : State, step s = .next t →
    (∃ more, t.evt = s.evt ++ more) ∧ (∃ more, t.snkOut = s.snkOut ++ more) ∧ s.now.toNat ≤ t.now.toNat

/-- R24, R353: after a successful CFG no step writes the configuration or anything derived from it, but a reset; and no step
at all changes the device's parameters (R9; log 20). -/
def Obligations.ConfigurationIsImmutable : Prop :=
  ∀ s t : State, step s = .next t → t.params = s.params ∧
    (s.cfgValid = true → (t.cfgValid = true ∧ t.cfg = s.cfg ∧ t.rom = s.rom) ∨ AtReset t)
end

