-- ==== Sys2Proof/Laws/Bits.lean ====
section
/-! SUPPORT. The padding loop, bit and byte sequences, hex digits, and the stream forms of the FEC: one lemma per helper
saying what it yields. -/

namespace Sys2Proof.Machine

/-! ### The padding loop (R128, R129, R234) -/

/-- The loop appends `z` copies, where `z` is the first number of copies that fits, if that many are allowed. -/
theorem appendUntil_eq {α : Type} {done : Nat → Bool} {x : α} {z : Nat} :
    ∀ {fuel : Nat} {l : List α}, z ≤ fuel → done (l.length + z) = true → (∀ y < z, done (l.length + y) = false) →
      appendUntil done x fuel l = l ++ List.replicate z x := by
  induction z with
  | zero =>
    intro fuel l _ hd _
    cases fuel <;> simp_all [appendUntil]
  | succ z ih =>
    intro fuel l hf hd hn
    cases fuel with
    | zero => omega
    | succ fuel =>
      have h0 : done l.length = false := by simpa using hn 0 (by omega)
      rw [appendUntil, if_neg (by simp [h0]), ih (by omega) (by simpa [Nat.add_assoc, Nat.add_comm 1 z] using hd)
        (fun y hy => by simpa [Nat.add_assoc, Nat.add_comm 1 y] using hn (y + 1) (by omega))]
      simp [List.replicate_succ]

/-- A first fit exists among fewer than n copies where `k·len` is to be a multiple of n. -/
theorem first_fit (n k len : Nat) (hn : 0 < n) :
    ∃ z < n, k * (len + z) % n = 0 ∧ ∀ y < z, k * (len + y) % n ≠ 0 := by
  have hex : ∃ z, k * (len + z) % n = 0 := by
    refine ⟨(n - len % n) % n, ?_⟩
    have : (len + (n - len % n) % n) % n = 0 := by
      rcases Nat.eq_zero_or_pos (len % n) with h | h
      · simp [h]
      · rw [Nat.mod_eq_of_lt (a := n - len % n) (by omega)]
        have := Nat.mod_add_div len n
        have hl := Nat.mod_lt len hn
        calc (len + (n - len % n)) % n = (n * (len / n) + n) % n := by congr 1; omega
          _ = 0 := by simp
    rw [Nat.mul_mod, this]; simp
  refine ⟨Nat.find hex, ?_, Nat.find_spec hex, fun y hy => Nat.find_min hex hy⟩
  by_contra hlt
  have h1 := Nat.find_spec hex
  have h2 := Nat.find_min hex (m := Nat.find hex - n) (by omega)
  apply h2
  have : k * (len + Nat.find hex) = k * (len + (Nat.find hex - n)) + n * k := by
    have : len + Nat.find hex = len + (Nat.find hex - n) + n := by omega
    rw [this, Nat.mul_add, Nat.mul_comm k n]
  rw [this, Nat.add_mul_mod_self_left] at h1
  exact h1

theorem padBits_eq (bits : List Bool) (n k : Nat) (hn : 0 < n) :
    ∃ z < n, padBits bits n k = bits ++ List.replicate z false ∧ k * (bits.length + z) % n = 0 ∧
      ∀ y < z, k * (bits.length + y) % n ≠ 0 := by
  obtain ⟨z, hz, h0, hm⟩ := first_fit n k bits.length hn
  exact ⟨z, hz, appendUntil_eq (by omega) (by simpa using h0) (by simpa using hm), h0, hm⟩

theorem fillSlot_eq (bits : List Bool) (n : Nat) (hn : 0 < n) :
    ∃ z < n, fillSlot bits n = bits ++ List.replicate z false ∧ (bits.length + z) % n = 0 ∧
      ∀ y < z, (bits.length + y) % n ≠ 0 := by
  obtain ⟨z, hz, h0, hm⟩ := first_fit n 1 bits.length hn
  simp only [Nat.one_mul] at h0 hm
  exact ⟨z, hz, appendUntil_eq (by omega) (by simpa using h0) (by simpa using hm), h0, hm⟩

theorem frmPad_eq (n : Nat) (data : List Byte) (hn : 0 < n) :
    ∃ z, frmPad n data = data ++ List.replicate z 0 ∧ 2 * 8 * (data.length + z + 6) % n = 0 ∧
      ∀ y < z, 2 * 8 * (data.length + y + 6) % n ≠ 0 := by
  obtain ⟨z, hz, h0, hm⟩ := first_fit n 16 (data.length + 6) hn
  have e : ∀ y, 16 * (data.length + 6 + y) = 2 * 8 * (data.length + y + 6) := fun y => by omega
  simp only [e] at h0 hm
  exact ⟨z, appendUntil_eq (by omega) (by simpa using h0) (by simpa using hm), h0, hm⟩

/-- No padding for up to 16 channels. -/
theorem frmPad_small (k : Nat) (data : List Byte) (hk : k ≤ 4) : frmPad (2 ^ k) data = data := by
  have : 2 * 8 * (data.length + 6) % 2 ^ k = 0 := by
    rw [show 2 * 8 * (data.length + 6) = 2 ^ k * (2 ^ (4 - k) * (data.length + 6)) by
      rw [← Nat.mul_assoc, ← Nat.pow_add, show k + (4 - k) = 4 by omega]]
    simp
  have h := appendUntil_eq (α := Byte) (done := fun len => 2 * 8 * (len + 6) % 2 ^ k == 0) (x := 0) (z := 0)
    (fuel := 2 ^ k) (l := data) (by omega) (by simpa using this) (by simp)
  simpa [frmPad] using h

/-! ### Bits, bytes and digits -/

@[simp] theorem byteBits_length (b : Byte) : (byteBits b).length = 8 := by simp [byteBits]

theorem bytes2bits_length (bs : List Byte) : (bytes2bits bs).length = 8 * bs.length := by
  induction bs with
  | nil => rfl
  | cons b bs ih => simp only [bytes2bits, List.flatMap_cons, List.length_append, byteBits_length] at *; simp [ih]; omega

/-- Packing the bits of a byte gives the byte. -/
theorem bitsByte_byteBits : ∀ b : Byte, bitsByte (byteBits b) = b := by decide

/-- Unpacking a packed group gives the group. -/
theorem byteBits_bitsByte : ∀ b0 b1 b2 b3 b4 b5 b6 b7 : Bool,
    byteBits (bitsByte [b0, b1, b2, b3, b4, b5, b6, b7]) = [b0, b1, b2, b3, b4, b5, b6, b7] := by decide

theorem bits2bytes_bytes2bits (bs : List Byte) : bits2bytes (bytes2bits bs) = bs := by
  induction bs with
  | nil => rfl
  | cons b bs ih =>
    have h := bitsByte_byteBits b
    simp only [bytes2bits, List.flatMap_cons, byteBits, List.map, List.range, List.range.loop, List.cons_append,
      List.nil_append, bits2bytes] at *
    rw [h, ih]

theorem bytes2bits_bits2bytes : ∀ bits : List Bool, bits.length % 8 = 0 → bytes2bits (bits2bytes bits) = bits
  | [], _ => rfl
  | b0 :: b1 :: b2 :: b3 :: b4 :: b5 :: b6 :: b7 :: rest, h => by
    have h' : rest.length % 8 = 0 := by simp only [List.length_cons] at h; omega
    have ih := bytes2bits_bits2bytes rest h'
    simp only [bits2bytes, bytes2bits, List.flatMap_cons] at *
    rw [ih, byteBits_bitsByte]; rfl
  | [_], h | [_, _], h | [_, _, _], h | [_, _, _, _], h | [_, _, _, _, _], h | [_, _, _, _, _, _], h
  | [_, _, _, _, _, _, _], h => by simp at h

theorem bits2bytes_length : ∀ bits : List Bool, (bits2bytes bits).length = bits.length / 8
  | b0 :: b1 :: b2 :: b3 :: b4 :: b5 :: b6 :: b7 :: rest => by
    simp only [bits2bytes, List.length_cons, bits2bytes_length rest]; omega
  | [] | [_] | [_, _] | [_, _, _] | [_, _, _, _] | [_, _, _, _, _] | [_, _, _, _, _, _] | [_, _, _, _, _, _, _] => by
    simp [bits2bytes]

theorem bin2hex_length : ∀ bits : List Bool, (bin2hex bits).length = bits.length / 4
  | b0 :: b1 :: b2 :: b3 :: rest => by simp only [bin2hex, List.length_cons, bin2hex_length rest]; omega
  | [] | [_] | [_, _] | [_, _, _] => by simp [bin2hex]

/-- A digit's four characters, packed again, give the digit in lower case. -/
theorem hexDigit_round : ∀ c : Byte, (hexVal c).isSome = true →
    hexDigit (bitsToNat ((hexDigitChars c).map fun d => d == 0x31))
      = if 0x41 ≤ c.toNat ∧ c.toNat ≤ 0x46 then c + 0x20 else c := by decide

/-- A digit has four characters. -/
theorem hexDigitChars_length (c : Byte) : (hexDigitChars c).length = 4 := rfl

/-- What `validHex` accepts: a non-empty string of digits after at most one `-`. -/
theorem validHex_ok {s t : List Byte} (h : validHex s = .ok t) :
    t = (if s.head? = some 0x2D then s.tail else s) ∧ t ≠ [] ∧ ∀ c ∈ t, (hexVal c).isSome = true := by
  unfold validHex at h
  cases s with
  | nil => simp at h
  | cons c rest =>
    by_cases hc : c = 0x2D
    · subst hc
      simp only [if_true] at h
      split at h
      · simp at h
      · split at h
        · rename_i he ha
          simp only [Except.ok.injEq] at h; subst h
          exact ⟨by simp, by simpa using he, by simpa using ha⟩
        · simp at h
    · simp only [if_neg hc] at h
      split at h
      · simp at h
      · split at h
        · rename_i he ha
          simp only [Except.ok.injEq] at h; subst h
          exact ⟨by rw [if_neg (by simpa using hc)], by simp, fun c hc => by have := List.all_eq_true.mp ha c hc; exact this⟩
        · simp at h

/-- `hex2bin` yields four characters per accepted digit. -/
theorem hex2bin_ok {s out : List Byte} (h : hex2bin s = .ok out) :
    ∃ t, validHex s = .ok t ∧ out = t.flatMap hexDigitChars := by
  unfold hex2bin at h
  split at h
  · simp at h
  · rename_i t ht; exact ⟨t, ht, by simpa using h.symm⟩

/-- A hex string converts to at least four bits. -/
theorem hex2bin_length {s out : List Byte} (h : hex2bin s = .ok out) : 4 ≤ out.length ∧ out.length % 4 = 0 := by
  obtain ⟨t, ht, rfl⟩ := hex2bin_ok h
  obtain ⟨-, hne, -⟩ := validHex_ok ht
  have : (t.flatMap hexDigitChars).length = 4 * t.length := by
    clear ht hne h
    induction t with
    | nil => rfl
    | cons c t ih => simp only [List.flatMap_cons, List.length_append, ih, hexDigitChars_length, List.length_cons]; omega
  have : 0 < t.length := List.length_pos_iff.mpr hne
  omega

/-! ### FEC streams (R148, R149) -/

/-- No error decodes to the message (R146 (a)). -/
theorem fecDec_fecEnc : ∀ b0 b1 b2 b3 : Bool, fecDecBits (fecEncBits [b0, b1, b2, b3]) = some [b0, b1, b2, b3] := by decide

@[simp] theorem fecEncBits_length (m : List Bool) : (fecEncBits m).length = 8 := by simp [fecEncBits, gf2Mul]

theorem fecEncStream_length : ∀ bits : List Bool, bits.length % 4 = 0 → (fecEncStream bits).length = 2 * bits.length
  | [], _ => rfl
  | b0 :: b1 :: b2 :: b3 :: rest, h => by
    have h' : rest.length % 4 = 0 := by simp only [List.length_cons] at h; omega
    simp only [fecEncStream, List.length_append, fecEncBits_length, fecEncStream_length rest h', List.length_cons]; omega
  | [_], h | [_, _], h | [_, _, _], h => by simp at h

/-- A coded stream of at least one group is not empty. -/
theorem fecEncStream_ne_nil {bits : List Bool} (h : 4 ≤ bits.length) : fecEncStream bits ≠ [] := by
  match bits, h with
  | b0 :: b1 :: b2 :: b3 :: rest, _ =>
    intro he
    have := congrArg List.length he
    simp [fecEncStream] at this

/-- One group at the front of a stream. -/
theorem fecDecStream_group {g : List Bool} (hg : g.length = 8) (rest : List Bool) :
    fecDecStream (g ++ rest) = match fecDecBits g, fecDecStream rest with
      | some m, some ms => some (m ++ ms)
      | _, _ => none := by
  match g, hg with
  | [b0, b1, b2, b3, b4, b5, b6, b7], _ => rfl

theorem fecDecStream_fecEncStream : ∀ bits : List Bool, bits.length % 4 = 0 →
    fecDecStream (fecEncStream bits) = some bits
  | [], _ => rfl
  | b0 :: b1 :: b2 :: b3 :: rest, h => by
    have h' : rest.length % 4 = 0 := by simp only [List.length_cons] at h; omega
    rw [fecEncStream, fecDecStream_group (fecEncBits_length _), fecDec_fecEnc, fecDecStream_fecEncStream rest h']
    rfl
  | [_], h | [_, _], h | [_, _, _], h => by simp at h

end Sys2Proof.Machine
end

