-- ==== Sys2Proof/Laws/Codec.lean ====
section
/-! SUPPORT. The Frame codec and the decoders: what each can answer, row by row. -/

namespace Sys2Proof.Machine

/-- A length that a byte can carry is carried as it is (R104). -/
theorem lengthByte_of_lt {len : Nat} (h : len < 256) : lengthByte len = BitVec.ofNat 8 len := if_pos h

/-- Every build error is an error code other than None. -/
theorem frmBuild_error {n : Nat} {addr : Byte} {cmd : Option Byte} {data : Option (List Byte)} {e : ErrCode}
    (h : frmBuild n addr cmd data = .error e) : e ≠ .ok := by
  revert h; unfold frmBuild
  repeat' split
  all_goals (intro h; simp at h; try (subst h; simp))

/-- A built Frame keeps the address and the command it was built from. -/
theorem frmBuild_ok {n : Nat} {addr cmd : Byte} {data : Option (List Byte)} {f : Frame}
    (h : frmBuild n addr (some cmd) data = .ok f) : f.receiverAddress = addr ∧ f.command = cmd := by
  unfold frmBuild at h
  dsimp only at h
  split at h
  · rename_i hc
    subst hc
    split at h
    · simp at h
    · split at h
      · simp at h
      · split at h
        · simp at h
        · simp only [Except.ok.injEq] at h; subst h; exact ⟨rfl, rfl⟩
  · simp only [Except.ok.injEq] at h; subst h; exact ⟨rfl, rfl⟩

/-- An Ok check of a device means the Frame carries its address (R243). -/
theorem checkAddress_ok {a d : Byte} (h : checkAddress a (some d) = .ok) : a = d := by
  unfold checkAddress at h
  dsimp only at h
  split at h
  · simp at h
  · split at h
    · assumption
    · simp at h

/-- After the address check the parser's third answer is that check, and the second is never OtherRecipient. -/
theorem parseBody_cases (n : Nat) (bs : List Byte) (addr cmd : Byte) (rest : List Byte) (ac : AddrCheck) :
    (∃ f : Frame, f.receiverAddress = addr ∧ f.command = cmd ∧ parseBody n bs addr cmd rest ac = (some f, .parsingOk, ac)) ∨
      (∃ pr, pr ≠ .otherRecipient ∧ pr ≠ .parsingOk ∧ parseBody n bs addr cmd rest ac = (none, pr, ac)) := by
  have hr : ∀ data, (∃ f : Frame, f.receiverAddress = addr ∧ f.command = cmd ∧
      rebuildFrame n bs addr cmd data ac = (some f, .parsingOk, ac)) ∨
      (∃ pr, pr ≠ .otherRecipient ∧ pr ≠ .parsingOk ∧ rebuildFrame n bs addr cmd data ac = (none, pr, ac)) := by
    intro data
    unfold rebuildFrame
    split
    · exact .inr ⟨_, by simp, by simp, rfl⟩
    · rename_i f hf
      split
      · exact .inl ⟨f, (frmBuild_ok hf).1, (frmBuild_ok hf).2, rfl⟩
      · exact .inr ⟨_, by simp, by simp, rfl⟩
  unfold parseBody
  split
  · split
    · exact .inr ⟨_, by simp, by simp, rfl⟩
    · exact hr _
  · split
    · exact hr _
    · exact .inr ⟨_, by simp, by simp, rfl⟩

/-- Everything the parser can do: an exit before the address is read, a Frame for another device, or the body of the parse
with the address check it made. -/
theorem frmParse_cases (bs : List Byte) (n : Nat) (dev : Option Byte) :
    (∃ pr, pr ≠ .parsingOk ∧ pr ≠ .otherRecipient ∧ (bs.length < 5 ∨ bs[0]? ≠ some SOH) ∧
      frmParse bs n dev = (none, pr, if dev.isNone then .ok else .otherRecipient)) ∨
    (∃ addr rest, bs = SOH :: addr :: rest ∧ 3 ≤ rest.length ∧ checkAddress addr dev = .otherRecipient ∧
      frmParse bs n dev = (none, .otherRecipient, .otherRecipient)) ∨
    (∃ addr cmd rest, bs = SOH :: addr :: cmd :: rest ∧ 2 ≤ rest.length ∧ checkAddress addr dev ≠ .otherRecipient ∧
      frmParse bs n dev = parseBody n bs addr cmd rest (checkAddress addr dev)) := by
  unfold frmParse
  dsimp only
  split
  · exact .inl ⟨_, by simp, by simp, .inl ‹_›, rfl⟩
  · rename_i hl
    split
    · rename_i b0 addr cmd rest
      simp only [List.length_cons, not_lt] at hl
      split
      · rename_i h0
        exact .inl ⟨_, by simp, by simp, .inr (by simpa using h0), rfl⟩
      · rename_i h0
        obtain rfl : b0 = SOH := by simpa using h0
        split
        · exact .inr (.inl ⟨addr, cmd :: rest, rfl, by simp only [List.length_cons]; omega, ‹_›, rfl⟩)
        · exact .inr (.inr ⟨addr, cmd, rest, rfl, by omega, ‹_›, rfl⟩)
    · rename_i h
      match bs, hl with
      | b0 :: b1 :: b2 :: rest, _ => exact absurd rfl (h b0 b1 b2 rest)
      | [], hl | [_], hl | [_, _], hl => simp at hl

/-- The parse of bytes that pass the address check. -/
theorem frmParse_body {addr cmd : Byte} {rest : List Byte} {dev : Option Byte} (n : Nat) (hl : 2 ≤ rest.length)
    (hc : checkAddress addr dev ≠ .otherRecipient) :
    frmParse (SOH :: addr :: cmd :: rest) n dev
      = parseBody n (SOH :: addr :: cmd :: rest) addr cmd rest (checkAddress addr dev) := by
  unfold frmParse
  dsimp only
  rw [if_neg (by simp only [List.length_cons]; omega), if_neg (by simp), if_neg hc]

/-- The data span before the first ETX. -/
theorem dataSpan_split (data rest : List Byte) (h : ETX ∉ data) : dataSpan (data ++ ETX :: rest) = some data := by
  unfold dataSpan
  rw [if_pos (by simp)]
  congr 1
  induction data with
  | nil => simp
  | cons b bs ih =>
    have hb : b ≠ ETX := fun h' => h (by simp [h'])
    have := ih (fun h' => h (List.mem_cons_of_mem _ h'))
    simp [hb, this]

/-- No ETX, no span. -/
theorem dataSpan_none {rest : List Byte} (h : ETX ∉ rest) : dataSpan rest = none := by
  unfold dataSpan; rw [if_neg (by simpa using h)]

/-- A parsed Frame was addressed to the device, and decoding it gives the instruction its command byte stands for. -/
theorem decodeFrame_ok {n : Nat} {dev : Option Byte} {bs : List Byte} {i : Instr} (h : decodeFrame n dev bs = .ok i) :
    ∃ f : Frame, i = ctrlOfFrame f ∧ frmParse bs n dev = (some f, .parsingOk, checkAddress f.receiverAddress dev) ∧
      checkAddress f.receiverAddress dev ≠ .otherRecipient := by
  unfold decodeFrame at h
  obtain ⟨pr, -, -, -, hp⟩ | ⟨a, r, -, -, -, hp⟩ | ⟨a, c, r, hb, hl, hc, hp⟩ := frmParse_cases bs n dev
  · rw [hp] at h; simp at h
  · rw [hp] at h; simp at h
  · obtain ⟨f, hf, -, hb'⟩ | ⟨pr, -, -, hb'⟩ := parseBody_cases n bs a c r (checkAddress a dev)
    · rw [hp, hb'] at h
      simp only [Except.ok.injEq] at h
      exact ⟨f, h.symm, by rw [hp, hb', hf], by rw [hf]; exact hc⟩
    · rw [hp, hb'] at h; simp at h

/-- Decoding a packet takes its header and payload from the front (R90). -/
theorem decodePacket_packet (op fl a b len : Byte) (rest : List Byte) (h : len.toNat ≤ rest.length) :
    decodePacket (op :: fl :: a :: b :: len :: rest)
      = match hostInstr op { flags := fl, a := a, b := b, payload := rest.take len.toNat } with
        | some i => .ok (i, rest.drop len.toNat)
        | none => .error (.badOpcode op (rest.drop len.toNat)) :=
  if_neg (Nat.not_lt.mpr h)

end Sys2Proof.Machine
end

