-- ==== Sys2Proof/Laws/State.lean ====
section
/-! SUPPORT. One lemma per field per update: what each elementary operation leaves in each field of the state. All hold by
`rfl` and are simp lemmas, so no later proof unfolds a record update. -/

namespace Sys2Proof.Machine

/-! `emit` appends one event and changes nothing else (R13, R69). -/

@[simp] theorem emit_params (e : Event) (s : State) : (emit e s).params = s.params := rfl
@[simp] theorem emit_cfgValid (e : Event) (s : State) : (emit e s).cfgValid = s.cfgValid := rfl
@[simp] theorem emit_cfg (e : Event) (s : State) : (emit e s).cfg = s.cfg := rfl
@[simp] theorem emit_rom (e : Event) (s : State) : (emit e s).rom = s.rom := rfl
@[simp] theorem emit_enc (e : Event) (s : State) : (emit e s).enc = s.enc := rfl
@[simp] theorem emit_dec (e : Event) (s : State) : (emit e s).dec = s.dec := rfl
@[simp] theorem emit_hslot (e : Event) (s : State) : (emit e s).hslot = s.hslot := rfl
@[simp] theorem emit_mst (e : Event) (s : State) : (emit e s).mst = s.mst := rfl
@[simp] theorem emit_slv (e : Event) (s : State) : (emit e s).slv = s.slv := rfl
@[simp] theorem emit_timeoutMs (e : Event) (s : State) : (emit e s).timeoutMs = s.timeoutMs := rfl
@[simp] theorem emit_lerr (e : Event) (s : State) : (emit e s).lerr = s.lerr := rfl
@[simp] theorem emit_resCode (e : Event) (s : State) : (emit e s).resCode = s.resCode := rfl
@[simp] theorem emit_resBuf (e : Event) (s : State) : (emit e s).resBuf = s.resBuf := rfl
@[simp] theorem emit_hostWait (e : Event) (s : State) : (emit e s).hostWait = s.hostWait := rfl
@[simp] theorem emit_evt (e : Event) (s : State) : (emit e s).evt = s.evt ++ [e] := rfl
@[simp] theorem emit_snkOut (e : Event) (s : State) : (emit e s).snkOut = s.snkOut := rfl
@[simp] theorem emit_now (e : Event) (s : State) : (emit e s).now = s.now := rfl
@[simp] theorem emit_sched (e : Event) (s : State) : (emit e s).sched = s.sched := rfl
@[simp] theorem emit_hostIn (e : Event) (s : State) : (emit e s).hostIn = s.hostIn := rfl
@[simp] theorem emit_srcIn (e : Event) (s : State) : (emit e s).srcIn = s.srcIn := rfl
@[simp] theorem emit_snkIn (e : Event) (s : State) : (emit e s).snkIn = s.snkIn := rfl
@[simp] theorem emit_clkIn (e : Event) (s : State) : (emit e s).clkIn = s.clkIn := rfl
@[simp] theorem emit_free (e : Event) (s : State) : (emit e s).free = s.free := rfl

/-! `respond` writes the response and changes nothing else (R41). -/

@[simp] theorem respond_params (e : ErrCode) (buf : List Byte) (s : State) : (respond e buf s).params = s.params := rfl
@[simp] theorem respond_cfgValid (e : ErrCode) (buf : List Byte) (s : State) : (respond e buf s).cfgValid = s.cfgValid := rfl
@[simp] theorem respond_cfg (e : ErrCode) (buf : List Byte) (s : State) : (respond e buf s).cfg = s.cfg := rfl
@[simp] theorem respond_rom (e : ErrCode) (buf : List Byte) (s : State) : (respond e buf s).rom = s.rom := rfl
@[simp] theorem respond_enc (e : ErrCode) (buf : List Byte) (s : State) : (respond e buf s).enc = s.enc := rfl
@[simp] theorem respond_dec (e : ErrCode) (buf : List Byte) (s : State) : (respond e buf s).dec = s.dec := rfl
@[simp] theorem respond_hslot (e : ErrCode) (buf : List Byte) (s : State) : (respond e buf s).hslot = s.hslot := rfl
@[simp] theorem respond_mst (e : ErrCode) (buf : List Byte) (s : State) : (respond e buf s).mst = s.mst := rfl
@[simp] theorem respond_slv (e : ErrCode) (buf : List Byte) (s : State) : (respond e buf s).slv = s.slv := rfl
@[simp] theorem respond_timeoutMs (e : ErrCode) (buf : List Byte) (s : State) : (respond e buf s).timeoutMs = s.timeoutMs := rfl
@[simp] theorem respond_lerr (e : ErrCode) (buf : List Byte) (s : State) : (respond e buf s).lerr = s.lerr := rfl
@[simp] theorem respond_resCode (e : ErrCode) (buf : List Byte) (s : State) : (respond e buf s).resCode = e := rfl
@[simp] theorem respond_resBuf (e : ErrCode) (buf : List Byte) (s : State) : (respond e buf s).resBuf = buf := rfl
@[simp] theorem respond_hostWait (e : ErrCode) (buf : List Byte) (s : State) : (respond e buf s).hostWait = s.hostWait := rfl
@[simp] theorem respond_evt (e : ErrCode) (buf : List Byte) (s : State) : (respond e buf s).evt = s.evt := rfl
@[simp] theorem respond_snkOut (e : ErrCode) (buf : List Byte) (s : State) : (respond e buf s).snkOut = s.snkOut := rfl
@[simp] theorem respond_now (e : ErrCode) (buf : List Byte) (s : State) : (respond e buf s).now = s.now := rfl
@[simp] theorem respond_sched (e : ErrCode) (buf : List Byte) (s : State) : (respond e buf s).sched = s.sched := rfl
@[simp] theorem respond_hostIn (e : ErrCode) (buf : List Byte) (s : State) : (respond e buf s).hostIn = s.hostIn := rfl
@[simp] theorem respond_srcIn (e : ErrCode) (buf : List Byte) (s : State) : (respond e buf s).srcIn = s.srcIn := rfl
@[simp] theorem respond_snkIn (e : ErrCode) (buf : List Byte) (s : State) : (respond e buf s).snkIn = s.snkIn := rfl
@[simp] theorem respond_clkIn (e : ErrCode) (buf : List Byte) (s : State) : (respond e buf s).clkIn = s.clkIn := rfl
@[simp] theorem respond_free (e : ErrCode) (buf : List Byte) (s : State) : (respond e buf s).free = s.free := rfl

/-! `deliverError` writes the response and changes nothing else (R322). -/

@[simp] theorem deliverError_params (e : ErrCode) (s : State) : (deliverError e s).params = s.params := rfl
@[simp] theorem deliverError_cfgValid (e : ErrCode) (s : State) : (deliverError e s).cfgValid = s.cfgValid := rfl
@[simp] theorem deliverError_cfg (e : ErrCode) (s : State) : (deliverError e s).cfg = s.cfg := rfl
@[simp] theorem deliverError_rom (e : ErrCode) (s : State) : (deliverError e s).rom = s.rom := rfl
@[simp] theorem deliverError_enc (e : ErrCode) (s : State) : (deliverError e s).enc = s.enc := rfl
@[simp] theorem deliverError_dec (e : ErrCode) (s : State) : (deliverError e s).dec = s.dec := rfl
@[simp] theorem deliverError_hslot (e : ErrCode) (s : State) : (deliverError e s).hslot = s.hslot := rfl
@[simp] theorem deliverError_mst (e : ErrCode) (s : State) : (deliverError e s).mst = s.mst := rfl
@[simp] theorem deliverError_slv (e : ErrCode) (s : State) : (deliverError e s).slv = s.slv := rfl
@[simp] theorem deliverError_timeoutMs (e : ErrCode) (s : State) : (deliverError e s).timeoutMs = s.timeoutMs := rfl
@[simp] theorem deliverError_lerr (e : ErrCode) (s : State) : (deliverError e s).lerr = s.lerr := rfl
@[simp] theorem deliverError_resCode (e : ErrCode) (s : State) : (deliverError e s).resCode = e := rfl
@[simp] theorem deliverError_resBuf (e : ErrCode) (s : State) : (deliverError e s).resBuf = [] := rfl
@[simp] theorem deliverError_hostWait (e : ErrCode) (s : State) : (deliverError e s).hostWait = s.hostWait := rfl
@[simp] theorem deliverError_evt (e : ErrCode) (s : State) : (deliverError e s).evt = s.evt := rfl
@[simp] theorem deliverError_snkOut (e : ErrCode) (s : State) : (deliverError e s).snkOut = s.snkOut := rfl
@[simp] theorem deliverError_now (e : ErrCode) (s : State) : (deliverError e s).now = s.now := rfl
@[simp] theorem deliverError_sched (e : ErrCode) (s : State) : (deliverError e s).sched = s.sched := rfl
@[simp] theorem deliverError_hostIn (e : ErrCode) (s : State) : (deliverError e s).hostIn = s.hostIn := rfl
@[simp] theorem deliverError_srcIn (e : ErrCode) (s : State) : (deliverError e s).srcIn = s.srcIn := rfl
@[simp] theorem deliverError_snkIn (e : ErrCode) (s : State) : (deliverError e s).snkIn = s.snkIn := rfl
@[simp] theorem deliverError_clkIn (e : ErrCode) (s : State) : (deliverError e s).clkIn = s.clkIn := rfl
@[simp] theorem deliverError_free (e : ErrCode) (s : State) : (deliverError e s).free = s.free := rfl

/-! `setEncErr` writes ENC_ERR and LERR (R323). -/

@[simp] theorem setEncErr_params (e : ErrCode) (s : State) : (setEncErr e s).params = s.params := rfl
@[simp] theorem setEncErr_cfgValid (e : ErrCode) (s : State) : (setEncErr e s).cfgValid = s.cfgValid := rfl
@[simp] theorem setEncErr_cfg (e : ErrCode) (s : State) : (setEncErr e s).cfg = s.cfg := rfl
@[simp] theorem setEncErr_rom (e : ErrCode) (s : State) : (setEncErr e s).rom = s.rom := rfl
@[simp] theorem setEncErr_enc (e : ErrCode) (s : State) : (setEncErr e s).enc = { s.enc with err := e } := rfl
@[simp] theorem setEncErr_dec (e : ErrCode) (s : State) : (setEncErr e s).dec = s.dec := rfl
@[simp] theorem setEncErr_hslot (e : ErrCode) (s : State) : (setEncErr e s).hslot = s.hslot := rfl
@[simp] theorem setEncErr_mst (e : ErrCode) (s : State) : (setEncErr e s).mst = s.mst := rfl
@[simp] theorem setEncErr_slv (e : ErrCode) (s : State) : (setEncErr e s).slv = s.slv := rfl
@[simp] theorem setEncErr_timeoutMs (e : ErrCode) (s : State) : (setEncErr e s).timeoutMs = s.timeoutMs := rfl
@[simp] theorem setEncErr_lerr (e : ErrCode) (s : State) : (setEncErr e s).lerr = lerrAfter e s.lerr := rfl
@[simp] theorem setEncErr_resCode (e : ErrCode) (s : State) : (setEncErr e s).resCode = s.resCode := rfl
@[simp] theorem setEncErr_resBuf (e : ErrCode) (s : State) : (setEncErr e s).resBuf = s.resBuf := rfl
@[simp] theorem setEncErr_hostWait (e : ErrCode) (s : State) : (setEncErr e s).hostWait = s.hostWait := rfl
@[simp] theorem setEncErr_evt (e : ErrCode) (s : State) : (setEncErr e s).evt = s.evt := rfl
@[simp] theorem setEncErr_snkOut (e : ErrCode) (s : State) : (setEncErr e s).snkOut = s.snkOut := rfl
@[simp] theorem setEncErr_now (e : ErrCode) (s : State) : (setEncErr e s).now = s.now := rfl
@[simp] theorem setEncErr_sched (e : ErrCode) (s : State) : (setEncErr e s).sched = s.sched := rfl
@[simp] theorem setEncErr_hostIn (e : ErrCode) (s : State) : (setEncErr e s).hostIn = s.hostIn := rfl
@[simp] theorem setEncErr_srcIn (e : ErrCode) (s : State) : (setEncErr e s).srcIn = s.srcIn := rfl
@[simp] theorem setEncErr_snkIn (e : ErrCode) (s : State) : (setEncErr e s).snkIn = s.snkIn := rfl
@[simp] theorem setEncErr_clkIn (e : ErrCode) (s : State) : (setEncErr e s).clkIn = s.clkIn := rfl
@[simp] theorem setEncErr_free (e : ErrCode) (s : State) : (setEncErr e s).free = s.free := rfl

/-! `setDecErr` writes DEC_ERR and LERR (R323). -/

@[simp] theorem setDecErr_params (e : ErrCode) (s : State) : (setDecErr e s).params = s.params := rfl
@[simp] theorem setDecErr_cfgValid (e : ErrCode) (s : State) : (setDecErr e s).cfgValid = s.cfgValid := rfl
@[simp] theorem setDecErr_cfg (e : ErrCode) (s : State) : (setDecErr e s).cfg = s.cfg := rfl
@[simp] theorem setDecErr_rom (e : ErrCode) (s : State) : (setDecErr e s).rom = s.rom := rfl
@[simp] theorem setDecErr_enc (e : ErrCode) (s : State) : (setDecErr e s).enc = s.enc := rfl
@[simp] theorem setDecErr_dec (e : ErrCode) (s : State) : (setDecErr e s).dec = { s.dec with err := e } := rfl
@[simp] theorem setDecErr_hslot (e : ErrCode) (s : State) : (setDecErr e s).hslot = s.hslot := rfl
@[simp] theorem setDecErr_mst (e : ErrCode) (s : State) : (setDecErr e s).mst = s.mst := rfl
@[simp] theorem setDecErr_slv (e : ErrCode) (s : State) : (setDecErr e s).slv = s.slv := rfl
@[simp] theorem setDecErr_timeoutMs (e : ErrCode) (s : State) : (setDecErr e s).timeoutMs = s.timeoutMs := rfl
@[simp] theorem setDecErr_lerr (e : ErrCode) (s : State) : (setDecErr e s).lerr = lerrAfter e s.lerr := rfl
@[simp] theorem setDecErr_resCode (e : ErrCode) (s : State) : (setDecErr e s).resCode = s.resCode := rfl
@[simp] theorem setDecErr_resBuf (e : ErrCode) (s : State) : (setDecErr e s).resBuf = s.resBuf := rfl
@[simp] theorem setDecErr_hostWait (e : ErrCode) (s : State) : (setDecErr e s).hostWait = s.hostWait := rfl
@[simp] theorem setDecErr_evt (e : ErrCode) (s : State) : (setDecErr e s).evt = s.evt := rfl
@[simp] theorem setDecErr_snkOut (e : ErrCode) (s : State) : (setDecErr e s).snkOut = s.snkOut := rfl
@[simp] theorem setDecErr_now (e : ErrCode) (s : State) : (setDecErr e s).now = s.now := rfl
@[simp] theorem setDecErr_sched (e : ErrCode) (s : State) : (setDecErr e s).sched = s.sched := rfl
@[simp] theorem setDecErr_hostIn (e : ErrCode) (s : State) : (setDecErr e s).hostIn = s.hostIn := rfl
@[simp] theorem setDecErr_srcIn (e : ErrCode) (s : State) : (setDecErr e s).srcIn = s.srcIn := rfl
@[simp] theorem setDecErr_snkIn (e : ErrCode) (s : State) : (setDecErr e s).snkIn = s.snkIn := rfl
@[simp] theorem setDecErr_clkIn (e : ErrCode) (s : State) : (setDecErr e s).clkIn = s.clkIn := rfl
@[simp] theorem setDecErr_free (e : ErrCode) (s : State) : (setDecErr e s).free = s.free := rfl

/-! `setMErr` writes M_ERR and LERR (R323). -/

@[simp] theorem setMErr_params (e : ErrCode) (s : State) : (setMErr e s).params = s.params := rfl
@[simp] theorem setMErr_cfgValid (e : ErrCode) (s : State) : (setMErr e s).cfgValid = s.cfgValid := rfl
@[simp] theorem setMErr_cfg (e : ErrCode) (s : State) : (setMErr e s).cfg = s.cfg := rfl
@[simp] theorem setMErr_rom (e : ErrCode) (s : State) : (setMErr e s).rom = s.rom := rfl
@[simp] theorem setMErr_enc (e : ErrCode) (s : State) : (setMErr e s).enc = s.enc := rfl
@[simp] theorem setMErr_dec (e : ErrCode) (s : State) : (setMErr e s).dec = s.dec := rfl
@[simp] theorem setMErr_hslot (e : ErrCode) (s : State) : (setMErr e s).hslot = s.hslot := rfl
@[simp] theorem setMErr_mst (e : ErrCode) (s : State) : (setMErr e s).mst = { s.mst with err := e } := rfl
@[simp] theorem setMErr_slv (e : ErrCode) (s : State) : (setMErr e s).slv = s.slv := rfl
@[simp] theorem setMErr_timeoutMs (e : ErrCode) (s : State) : (setMErr e s).timeoutMs = s.timeoutMs := rfl
@[simp] theorem setMErr_lerr (e : ErrCode) (s : State) : (setMErr e s).lerr = lerrAfter e s.lerr := rfl
@[simp] theorem setMErr_resCode (e : ErrCode) (s : State) : (setMErr e s).resCode = s.resCode := rfl
@[simp] theorem setMErr_resBuf (e : ErrCode) (s : State) : (setMErr e s).resBuf = s.resBuf := rfl
@[simp] theorem setMErr_hostWait (e : ErrCode) (s : State) : (setMErr e s).hostWait = s.hostWait := rfl
@[simp] theorem setMErr_evt (e : ErrCode) (s : State) : (setMErr e s).evt = s.evt := rfl
@[simp] theorem setMErr_snkOut (e : ErrCode) (s : State) : (setMErr e s).snkOut = s.snkOut := rfl
@[simp] theorem setMErr_now (e : ErrCode) (s : State) : (setMErr e s).now = s.now := rfl
@[simp] theorem setMErr_sched (e : ErrCode) (s : State) : (setMErr e s).sched = s.sched := rfl
@[simp] theorem setMErr_hostIn (e : ErrCode) (s : State) : (setMErr e s).hostIn = s.hostIn := rfl
@[simp] theorem setMErr_srcIn (e : ErrCode) (s : State) : (setMErr e s).srcIn = s.srcIn := rfl
@[simp] theorem setMErr_snkIn (e : ErrCode) (s : State) : (setMErr e s).snkIn = s.snkIn := rfl
@[simp] theorem setMErr_clkIn (e : ErrCode) (s : State) : (setMErr e s).clkIn = s.clkIn := rfl
@[simp] theorem setMErr_free (e : ErrCode) (s : State) : (setMErr e s).free = s.free := rfl

/-! `stopDecoder` clears DEC_RUN and changes nothing else (R191). -/

@[simp] theorem stopDecoder_params (s : State) : (stopDecoder s).params = s.params := rfl
@[simp] theorem stopDecoder_cfgValid (s : State) : (stopDecoder s).cfgValid = s.cfgValid := rfl
@[simp] theorem stopDecoder_cfg (s : State) : (stopDecoder s).cfg = s.cfg := rfl
@[simp] theorem stopDecoder_rom (s : State) : (stopDecoder s).rom = s.rom := rfl
@[simp] theorem stopDecoder_enc (s : State) : (stopDecoder s).enc = s.enc := rfl
@[simp] theorem stopDecoder_dec (s : State) : (stopDecoder s).dec = { s.dec with run := false } := rfl
@[simp] theorem stopDecoder_hslot (s : State) : (stopDecoder s).hslot = s.hslot := rfl
@[simp] theorem stopDecoder_mst (s : State) : (stopDecoder s).mst = s.mst := rfl
@[simp] theorem stopDecoder_slv (s : State) : (stopDecoder s).slv = s.slv := rfl
@[simp] theorem stopDecoder_timeoutMs (s : State) : (stopDecoder s).timeoutMs = s.timeoutMs := rfl
@[simp] theorem stopDecoder_lerr (s : State) : (stopDecoder s).lerr = s.lerr := rfl
@[simp] theorem stopDecoder_resCode (s : State) : (stopDecoder s).resCode = s.resCode := rfl
@[simp] theorem stopDecoder_resBuf (s : State) : (stopDecoder s).resBuf = s.resBuf := rfl
@[simp] theorem stopDecoder_hostWait (s : State) : (stopDecoder s).hostWait = s.hostWait := rfl
@[simp] theorem stopDecoder_evt (s : State) : (stopDecoder s).evt = s.evt := rfl
@[simp] theorem stopDecoder_snkOut (s : State) : (stopDecoder s).snkOut = s.snkOut := rfl
@[simp] theorem stopDecoder_now (s : State) : (stopDecoder s).now = s.now := rfl
@[simp] theorem stopDecoder_sched (s : State) : (stopDecoder s).sched = s.sched := rfl
@[simp] theorem stopDecoder_hostIn (s : State) : (stopDecoder s).hostIn = s.hostIn := rfl
@[simp] theorem stopDecoder_srcIn (s : State) : (stopDecoder s).srcIn = s.srcIn := rfl
@[simp] theorem stopDecoder_snkIn (s : State) : (stopDecoder s).snkIn = s.snkIn := rfl
@[simp] theorem stopDecoder_clkIn (s : State) : (stopDecoder s).clkIn = s.clkIn := rfl
@[simp] theorem stopDecoder_free (s : State) : (stopDecoder s).free = s.free := rfl

/-! `startDecoder` clears the decoder's dynamic state and the handoff slot (R190). -/

@[simp] theorem startDecoder_params (s : State) : (startDecoder s).params = s.params := rfl
@[simp] theorem startDecoder_cfgValid (s : State) : (startDecoder s).cfgValid = s.cfgValid := rfl
@[simp] theorem startDecoder_cfg (s : State) : (startDecoder s).cfg = s.cfg := rfl
@[simp] theorem startDecoder_rom (s : State) : (startDecoder s).rom = s.rom := rfl
@[simp] theorem startDecoder_enc (s : State) : (startDecoder s).enc = s.enc := rfl
@[simp] theorem startDecoder_dec (s : State) : (startDecoder s).dec =
    { run := true, alive := true, phase := .top, frameBuf := s.dec.frameBuf, err := .ok,
      old := List.replicate s.cfg.nCh 0, raw := [], msg := [], rxHex := [], rxBytes := [],
      eot := false, ded := false, ovf := false } := rfl
@[simp] theorem startDecoder_hslot (s : State) : (startDecoder s).hslot = none := rfl
@[simp] theorem startDecoder_mst (s : State) : (startDecoder s).mst = s.mst := rfl
@[simp] theorem startDecoder_slv (s : State) : (startDecoder s).slv = s.slv := rfl
@[simp] theorem startDecoder_timeoutMs (s : State) : (startDecoder s).timeoutMs = s.timeoutMs := rfl
@[simp] theorem startDecoder_lerr (s : State) : (startDecoder s).lerr = s.lerr := rfl
@[simp] theorem startDecoder_resCode (s : State) : (startDecoder s).resCode = s.resCode := rfl
@[simp] theorem startDecoder_resBuf (s : State) : (startDecoder s).resBuf = s.resBuf := rfl
@[simp] theorem startDecoder_hostWait (s : State) : (startDecoder s).hostWait = s.hostWait := rfl
@[simp] theorem startDecoder_evt (s : State) : (startDecoder s).evt = s.evt := rfl
@[simp] theorem startDecoder_snkOut (s : State) : (startDecoder s).snkOut = s.snkOut := rfl
@[simp] theorem startDecoder_now (s : State) : (startDecoder s).now = s.now := rfl
@[simp] theorem startDecoder_sched (s : State) : (startDecoder s).sched = s.sched := rfl
@[simp] theorem startDecoder_hostIn (s : State) : (startDecoder s).hostIn = s.hostIn := rfl
@[simp] theorem startDecoder_srcIn (s : State) : (startDecoder s).srcIn = s.srcIn := rfl
@[simp] theorem startDecoder_snkIn (s : State) : (startDecoder s).snkIn = s.snkIn := rfl
@[simp] theorem startDecoder_clkIn (s : State) : (startDecoder s).clkIn = s.clkIn := rfl
@[simp] theorem startDecoder_free (s : State) : (startDecoder s).free = s.free := rfl

/-! `backToTop` ends a frame's decode: the loop's top, FRAME_BUF unspecified (R195, U5). -/

@[simp] theorem backToTop_params (s : State) : (backToTop s).params = s.params := rfl
@[simp] theorem backToTop_cfgValid (s : State) : (backToTop s).cfgValid = s.cfgValid := rfl
@[simp] theorem backToTop_cfg (s : State) : (backToTop s).cfg = s.cfg := rfl
@[simp] theorem backToTop_rom (s : State) : (backToTop s).rom = s.rom := rfl
@[simp] theorem backToTop_enc (s : State) : (backToTop s).enc = s.enc := rfl
@[simp] theorem backToTop_dec (s : State) :
    (backToTop s).dec = { s.dec with phase := .top, frameBuf := Config.unspecifiedFrameBuf s.free } := rfl
@[simp] theorem backToTop_hslot (s : State) : (backToTop s).hslot = s.hslot := rfl
@[simp] theorem backToTop_mst (s : State) : (backToTop s).mst = s.mst := rfl
@[simp] theorem backToTop_slv (s : State) : (backToTop s).slv = s.slv := rfl
@[simp] theorem backToTop_timeoutMs (s : State) : (backToTop s).timeoutMs = s.timeoutMs := rfl
@[simp] theorem backToTop_lerr (s : State) : (backToTop s).lerr = s.lerr := rfl
@[simp] theorem backToTop_resCode (s : State) : (backToTop s).resCode = s.resCode := rfl
@[simp] theorem backToTop_resBuf (s : State) : (backToTop s).resBuf = s.resBuf := rfl
@[simp] theorem backToTop_hostWait (s : State) : (backToTop s).hostWait = s.hostWait := rfl
@[simp] theorem backToTop_evt (s : State) : (backToTop s).evt = s.evt := rfl
@[simp] theorem backToTop_snkOut (s : State) : (backToTop s).snkOut = s.snkOut := rfl
@[simp] theorem backToTop_now (s : State) : (backToTop s).now = s.now := rfl
@[simp] theorem backToTop_sched (s : State) : (backToTop s).sched = s.sched := rfl
@[simp] theorem backToTop_hostIn (s : State) : (backToTop s).hostIn = s.hostIn := rfl
@[simp] theorem backToTop_srcIn (s : State) : (backToTop s).srcIn = s.srcIn := rfl
@[simp] theorem backToTop_snkIn (s : State) : (backToTop s).snkIn = s.snkIn := rfl
@[simp] theorem backToTop_clkIn (s : State) : (backToTop s).clkIn = s.clkIn := rfl
@[simp] theorem backToTop_free (s : State) : (backToTop s).free = s.free + 1 := rfl

/-! `resetRegs` gives every register its reset value and keeps the rest (R350, R351). -/

@[simp] theorem resetRegs_params (s : State) : (resetRegs s).params = s.params := rfl
@[simp] theorem resetRegs_cfgValid (s : State) : (resetRegs s).cfgValid = false := rfl
@[simp] theorem resetRegs_cfg (s : State) : (resetRegs s).cfg = Config.unspecifiedCfg s.free := rfl
@[simp] theorem resetRegs_rom (s : State) : (resetRegs s).rom = Config.unspecifiedRom s.free := rfl
@[simp] theorem resetRegs_enc (s : State) : (resetRegs s).enc = EncRegs.reset := rfl
@[simp] theorem resetRegs_dec (s : State) : (resetRegs s).dec = DecRegs.reset (Config.unspecifiedFrameBuf s.free) := rfl
@[simp] theorem resetRegs_hslot (s : State) : (resetRegs s).hslot = none := rfl
@[simp] theorem resetRegs_mst (s : State) : (resetRegs s).mst = MasterRegs.reset := rfl
@[simp] theorem resetRegs_slv (s : State) : (resetRegs s).slv = SlaveRegs.reset := rfl
@[simp] theorem resetRegs_timeoutMs (s : State) : (resetRegs s).timeoutMs = s.params.timeoutDefaultMs := rfl
@[simp] theorem resetRegs_lerr (s : State) : (resetRegs s).lerr = .ok := rfl
@[simp] theorem resetRegs_resCode (s : State) : (resetRegs s).resCode = .ok := rfl
@[simp] theorem resetRegs_resBuf (s : State) : (resetRegs s).resBuf = [] := rfl
@[simp] theorem resetRegs_hostWait (s : State) : (resetRegs s).hostWait = false := rfl
@[simp] theorem resetRegs_evt (s : State) : (resetRegs s).evt = s.evt := rfl
@[simp] theorem resetRegs_snkOut (s : State) : (resetRegs s).snkOut = s.snkOut := rfl
@[simp] theorem resetRegs_now (s : State) : (resetRegs s).now = s.now := rfl
@[simp] theorem resetRegs_sched (s : State) : (resetRegs s).sched = s.sched := rfl
@[simp] theorem resetRegs_hostIn (s : State) : (resetRegs s).hostIn = s.hostIn := rfl
@[simp] theorem resetRegs_srcIn (s : State) : (resetRegs s).srcIn = s.srcIn := rfl
@[simp] theorem resetRegs_snkIn (s : State) : (resetRegs s).snkIn = s.snkIn := rfl
@[simp] theorem resetRegs_clkIn (s : State) : (resetRegs s).clkIn = s.clkIn := rfl
@[simp] theorem resetRegs_free (s : State) : (resetRegs s).free = s.free + 1 := rfl

end Sys2Proof.Machine
end

