-- ==== Sys2Proof/Laws/Ops.lean ====
section
/-! SUPPORT. One lemma per shared operation saying all it can do: the host operation's checks, whose turn it is, the two
sample ports, the error registers. Later proofs cite these and never unfold the operations. -/

namespace Sys2Proof.Machine

/-! ### The host operation (R324) -/

@[simp] theorem firstError_nil : firstError [] = .ok := rfl
@[simp] theorem firstError_none (l : List (Option ErrCode)) : firstError (none :: l) = firstError l := rfl
@[simp] theorem firstError_some (e : ErrCode) (l : List (Option ErrCode)) : firstError (some e :: l) = e := rfl

/-- A malformed packet answers BadPacket and changes nothing else. -/
theorem hostOp_malformed {form : Bool} (h : form = false) (checks : List (Option ErrCode)) (body : State → State) (s : State) :
    hostOp form checks body s = { s with resCode := .badPacket, resBuf := [] } := by
  subst h; rfl

/-- The first failing check is the response, and nothing else changes. -/
theorem hostOp_refused {form : Bool} {checks : List (Option ErrCode)} {e : ErrCode} (h : form = true)
    (hc : firstError checks = e) (he : e ≠ .ok) (body : State → State) (s : State) :
    hostOp form checks body s = { s with resCode := e, resBuf := [] } := by
  subst h hc; simp [hostOp, he]; rfl

/-- With the form right and every check passed, the operation has its effect. -/
theorem hostOp_done {form : Bool} {checks : List (Option ErrCode)} (h : form = true) (hc : firstError checks = .ok)
    (body : State → State) (s : State) : hostOp form checks body s = body s := by
  simp [hostOp, h, hc]

/-- Everything a host operation can do: answer an error, or its effect with the form right and every check passed. -/
theorem hostOp_cases (form : Bool) (checks : List (Option ErrCode)) (body : State → State) (s : State) :
    (∃ e, e ≠ .ok ∧ (form = false ∨ e = firstError checks) ∧ hostOp form checks body s = { s with resCode := e, resBuf := [] }) ∨
      (form = true ∧ firstError checks = .ok ∧ hostOp form checks body s = body s) := by
  by_cases hf : form = true
  · by_cases hc : firstError checks = .ok
    · exact .inr ⟨hf, hc, hostOp_done hf hc body s⟩
    · exact .inl ⟨_, hc, .inr rfl, hostOp_refused hf rfl hc body s⟩
  · exact .inl ⟨.badPacket, by decide, .inl (by simpa using hf), hostOp_malformed (by simpa using hf) checks body s⟩

/-- A property that responses do not disturb is kept by a host operation whose effect keeps it. -/
theorem hostOp_keeps {P : State → Prop} {form : Bool} {checks : List (Option ErrCode)} {body : State → State} {s : State}
    (hr : ∀ e, P { s with resCode := e, resBuf := [] }) (hb : form = true → firstError checks = .ok → P (body s)) :
    P (hostOp form checks body s) := by
  obtain ⟨e, -, -, h⟩ | ⟨hf, hc, h⟩ := hostOp_cases form checks body s
  · rw [h]; exact hr e
  · rw [h]; exact hb hf hc

/-- Every check of a list that passed has passed. -/
theorem firstError_eq_ok {l : List (Option ErrCode)} (h : firstError l = .ok) (hl : some ErrCode.ok ∉ l) :
    ∀ c ∈ l, c = none := by
  induction l with
  | nil => simp
  | cons c l ih =>
    cases c with
    | none => simpa using ih h (fun hm => hl (List.mem_cons_of_mem _ hm))
    | some e => simp only [firstError_some] at h; subst h; simp at hl

/-! ### The checks -/

@[simp] theorem needCfg_true {s : State} (h : s.cfgValid = true) : needCfg s = none := by simp [needCfg, h]
@[simp] theorem needCfg_false {s : State} (h : s.cfgValid = false) : needCfg s = some .notConfigured := by
  simp [needCfg, h]
@[simp] theorem needNoCfg_true {s : State} (h : s.cfgValid = true) : needNoCfg s = some .alreadyConfigured := by
  simp [needNoCfg, h]
@[simp] theorem needNoCfg_false {s : State} (h : s.cfgValid = false) : needNoCfg s = none := by simp [needNoCfg, h]
@[simp] theorem needRole_same {s : State} {r : Role} (h : s.cfg.role = r) : needRole r s = none := by simp [needRole, h]
@[simp] theorem needRole_other {s : State} {r : Role} (h : s.cfg.role ≠ r) : needRole r s = some .wrongRole := by
  simp [needRole, h]
@[simp] theorem needMode_same {s : State} {m : Mode} (h : s.cfg.mode = m) : needMode m s = none := by simp [needMode, h]
@[simp] theorem needMode_other {s : State} {m : Mode} (h : s.cfg.mode ≠ m) : needMode m s = some .wrongMode := by
  simp [needMode, h]

/-- What the passed checks say of the state. -/
theorem needCfg_eq_none {s : State} : needCfg s = none ↔ s.cfgValid = true := by
  cases h : s.cfgValid <;> simp [needCfg, h]
theorem needNoCfg_eq_none {s : State} : needNoCfg s = none ↔ s.cfgValid = false := by
  cases h : s.cfgValid <;> simp [needNoCfg, h]
theorem needRole_eq_none {r : Role} {s : State} : needRole r s = none ↔ s.cfg.role = r := by
  by_cases h : s.cfg.role = r <;> simp [needRole, h]
theorem needMode_eq_none {m : Mode} {s : State} : needMode m s = none ↔ s.cfg.mode = m := by
  by_cases h : s.cfg.mode = m <;> simp [needMode, h]
theorem needDecoder_eq_none {s : State} : needDecoder s = none ↔ s.cfg.nfftValid = true ∧ s.cfg.thrValid = true := by
  cases h : s.cfg.nfftValid <;> cases h' : s.cfg.thrValid <;> simp [needDecoder, h, h']
theorem needEncIdle_eq_none {s : State} : needEncIdle s = none ↔ s.enc.phase = .idle := by
  by_cases h : s.enc.phase = .idle <;> simp [needEncIdle, h]
theorem needDecDead_eq_none {s : State} : needDecDead s = none ↔ s.dec.alive = false := by
  cases h : s.dec.alive <;> simp [needDecDead, h]
theorem needMasterFree_eq_none {s : State} :
    needMasterFree s = none ↔ s.mst.pend = none ∧ s.mst.state = .idle ∧ s.mst.stopReq = false := by
  by_cases h : s.mst.pend = none ∧ s.mst.state = .idle ∧ s.mst.stopReq = false <;> simp [needMasterFree, h]

/-! ### Whose turn it is (R72) -/

@[simp] theorem takeTurn_listed {s : State} {a : Agent} {rest : List Agent} (h : s.sched = a :: rest) :
    takeTurn s = (a, { s with sched := rest }) := by simp [takeTurn, h]

/-- Taking a turn changes the schedule and the free counter only. -/
theorem takeTurn_rest (s : State) : ∃ turns n, (takeTurn s).2 = { s with sched := turns, free := n } := by
  unfold takeTurn; split
  · exact ⟨_, _, rfl⟩
  · exact ⟨s.sched, s.free + 1, rfl⟩

/-- A step with a listed turn. -/
theorem step_listed {s : State} {a : Agent} {rest : List Agent} (h : s.sched = a :: rest) :
    step s = agentTurn a { s with sched := rest } := by simp [step, takeTurn_listed h]

/-! ### The sample ports (R67, R68, R194) -/

/-- A pull answers samples of the right length or an error, and consumes a listed reply or a free value. -/
theorem srcPull_cases (s : State) : ∃ more n, (srcPull s).2 = { s with srcIn := more, free := n } ∧
    ((srcPull s).1 = .err ∨ ∃ samples, (srcPull s).1 = .ok samples ∧ samples.length = s.rom.nDec) := by
  unfold srcPull
  cases h : s.srcIn with
  | nil =>
    refine ⟨s.srcIn, s.free + 1, by simp [h], ?_⟩
    by_cases hf : Config.freeSrcOk s.free = true <;> simp [hf]
  | cons r rest =>
    refine ⟨rest, s.free, rfl, ?_⟩
    cases r with
    | ok samples => by_cases hl : samples.length = s.rom.nDec <;> simp [hl]
    | err => simp

theorem srcPull_ok {s : State} {samples : List Sample} {more : List SrcReply} (h : s.srcIn = .ok samples :: more)
    (hl : samples.length = s.rom.nDec) : srcPull s = (.ok samples, { s with srcIn := more }) := by
  simp [srcPull, h, hl]

theorem srcPull_err {s : State} {r : SrcReply} {more : List SrcReply} (h : s.srcIn = r :: more)
    (hr : r = .err ∨ ∃ samples, r = .ok samples ∧ samples.length ≠ s.rom.nDec) :
    srcPull s = (.err, { s with srcIn := more }) := by
  obtain rfl | ⟨samples, rfl, hl⟩ := hr <;> simp [srcPull, h]
  simp [hl]

/-- A push records the buffer with its reply, and consumes a listed reply or a free value. -/
theorem snkPush_cases (buf : List Sample) (s : State) : ∃ more n,
    (snkPush buf s).2 = { s with snkIn := more, free := n, snkOut := s.snkOut ++ [{ buf := buf, ok := (snkPush buf s).1 }] } := by
  unfold snkPush
  cases h : s.snkIn with
  | nil => exact ⟨s.snkIn, s.free + 1, by simp [h]⟩
  | cons r rest => exact ⟨rest, s.free, rfl⟩

theorem snkPush_listed {s : State} {r : Bool} {more : List Bool} (h : s.snkIn = r :: more) (buf : List Sample) :
    snkPush buf s = (r, { s with snkIn := more, snkOut := s.snkOut ++ [{ buf := buf, ok := r }] }) := by
  simp [snkPush, h]

/-! ### Time and errors -/

/-- NOW never decreases (R43). -/
theorem advance_ge (now : BitVec 64) (d : Nat) : now.toNat ≤ (advance now d).toNat := by
  unfold advance; split
  · rw [BitVec.toNat_ofNat, Nat.mod_eq_of_lt ‹_›]; omega
  · have := now.isLt; simp; omega

@[simp] theorem lerrAfter_ok (old : ErrCode) : lerrAfter .ok old = old := rfl
theorem lerrAfter_error {e : ErrCode} (h : e ≠ .ok) (old : ErrCode) : lerrAfter e old = e := by simp [lerrAfter, h]

/-- Where ENC_ERR's start of a run leaves the state: the coded bits are in place, or only the error is recorded. -/
theorem encStart_ok {s : State} {bits : List Bool} (h : rawBits s.cfg s.enc = .ok bits) :
    encStart s = (.ok, { s with
      enc := { s.enc with bits := codeBits s.cfg bits, slot := 0, err := .ok, phase := .transmitting } }) := by
  simp [encStart, h]

theorem encStart_error {s : State} {e : ErrCode} (h : rawBits s.cfg s.enc = .error e) :
    encStart s = (e, emit (.logSendFailed e) (setEncErr e s)) := by simp [encStart, h]

/-- In DataFrame mode a loaded Frame's run always begins. -/
theorem rawBits_frame {c : CfgRegs} {e : EncRegs} {f : Frame} (hm : c.mode = .dataFrame) (hf : e.frm = some f) :
    rawBits c e = .ok (bytes2bits (frmSerialize f)) := by simp [rawBits, hm, hf]

/-- Every turn of every instruction ends in a next state: no arm faults or refuses (R325). -/
theorem exec_next (i : Instr) (s : State) : ∃ t, exec i s = .next t := by cases i <;> exact ⟨_, rfl⟩

end Sys2Proof.Machine
end

