-- ==== Sys2Proof/Laws/PerInstr.lean ====
section
/-! SUPPORT. Statements about every instruction as syntax, one lemma per constructor. -/

namespace Sys2Proof.Laws.OpcodeTable

/-- The encoder and the decoder use one opcode list (spec/30_encoding.md R92) and one layout (R90, R102): a host operation's
words are its packet, whose opcode stands for that very operation; a received command's words begin with SOH and the
address. -/
def Statement (i : Instr) : Prop :=
  match opcodeOf i with
  | some op => ∃ o, hostInstr op o = some i ∧ encode i = packetBytes op o
  | none => ∃ addr cmd tail, encode i = 0x01 :: addr :: cmd :: tail ∧ 2 ≤ tail.length

theorem cfg (o : Operands) : Statement (.cfg o) := ⟨o, rfl, rfl⟩
theorem rst (o : Operands) : Statement (.rst o) := ⟨o, rfl, rfl⟩
theorem rdst (o : Operands) : Statement (.rdst o) := ⟨o, rfl, rfl⟩
theorem hex2bin (o : Operands) : Statement (.hex2bin o) := ⟨o, rfl, rfl⟩
theorem bstr2arr (o : Operands) : Statement (.bstr2arr o) := ⟨o, rfl, rfl⟩
theorem bin2hex (o : Operands) : Statement (.bin2hex o) := ⟨o, rfl, rfl⟩
theorem fecEnc (o : Operands) : Statement (.fecEnc o) := ⟨o, rfl, rfl⟩
theorem fecDec (o : Operands) : Statement (.fecDec o) := ⟨o, rfl, rfl⟩
theorem encLdhex (o : Operands) : Statement (.encLdhex o) := ⟨o, rfl, rfl⟩
theorem encLdfrm (o : Operands) : Statement (.encLdfrm o) := ⟨o, rfl, rfl⟩
theorem encRun (o : Operands) : Statement (.encRun o) := ⟨o, rfl, rfl⟩
theorem decStart (o : Operands) : Statement (.decStart o) := ⟨o, rfl, rfl⟩
theorem decStop (o : Operands) : Statement (.decStop o) := ⟨o, rfl, rfl⟩
theorem decRdhex (o : Operands) : Statement (.decRdhex o) := ⟨o, rfl, rfl⟩
theorem decRdfrm (o : Operands) : Statement (.decRdfrm o) := ⟨o, rfl, rfl⟩
theorem frmBuild (o : Operands) : Statement (.frmBuild o) := ⟨o, rfl, rfl⟩
theorem frmParse (o : Operands) : Statement (.frmParse o) := ⟨o, rfl, rfl⟩
theorem mSend (o : Operands) : Statement (.mSend o) := ⟨o, rfl, rfl⟩
theorem mSendbc (o : Operands) : Statement (.mSendbc o) := ⟨o, rfl, rfl⟩
theorem mIdle (o : Operands) : Statement (.mIdle o) := ⟨o, rfl, rfl⟩
theorem mStop (o : Operands) : Statement (.mStop o) := ⟨o, rfl, rfl⟩
theorem mSetto (o : Operands) : Statement (.mSetto o) := ⟨o, rfl, rfl⟩
theorem sStart (o : Operands) : Statement (.sStart o) := ⟨o, rfl, rfl⟩
theorem sStop (o : Operands) : Statement (.sStop o) := ⟨o, rfl, rfl⟩
theorem stx (addr : Byte) (data : List Byte) : Statement (.stx addr data) :=
  ⟨addr, 0x02, data ++ [0x03, BitVec.ofNat 8 (data.length + 6), 0x04], rfl, by simp⟩
theorem ack (addr : Byte) : Statement (.ack addr) := ⟨addr, 0x06, [0x05, 0x04], rfl, by simp⟩
theorem nak (addr : Byte) : Statement (.nak addr) := ⟨addr, 0x15, [0x05, 0x04], rfl, by simp⟩
theorem cmdOther (addr cmd : Byte) : Statement (.cmdOther addr cmd) := ⟨addr, cmd, [0x05, 0x04], rfl, by simp⟩

end Sys2Proof.Laws.OpcodeTable
end

