-- ==== Sys2Proof/Tests/Slice0.lean ====
section
/-! SUPPORT. The model's own tests, the vectors (S.., V.., P..) of spec/95_test_vectors.md unless a comment says otherwise,
and for every obligation with hypotheses a concrete state and operands that meet them, clause by clause (`witness_…`). -/

namespace Sys2Proof.Tests

open Sys2Proof.Machine

/-! ### Small states -/

/-- A packet with a payload and no other operand. -/
def pay (p : List Byte) : Operands := { flags := 0, a := 0, b := 0, payload := p }

/-- A device after reset, with known values where R50 leaves them unspecified. -/
def blank : State :=
  { State.reset with cfg := masterCfg, rom := deriveRom Config.defaultParams masterCfg default, dec := DecRegs.reset [] }

/-- A configured device: 48000 Hz, 16 channels from 18000 Hz, step 20 Hz, NFFT 8192, threshold 3/10; a slave has address 7. -/
def dev (r : Role) (m : Mode) : State :=
  { blank with
    cfgValid := true
    cfg := { masterCfg with role := r, mode := m, devAddr := if r = .slave then 0x07 else 0x00 } }

abbrev plainDev : State := dev .standalone .dataFrame
abbrev simpleDev : State := dev .standalone .simple
abbrev masterDev : State := dev .master .dataFrame
abbrev slaveDev : State := dev .slave .dataFrame

/-- A master with the action `act` in flight. -/
def sendingDev (act : Action) : State :=
  { masterDev with mst := { masterDev.mst with state := .sending, last := some act } }

/-- A master that awaits the response to the action `act`, its decoder running. -/
def awaitingDev (act : Action) : State :=
  { masterDev with
    mst := { masterDev.mst with state := .awaitingResponse, last := some act }
    dec := { masterDev.dec with run := true, alive := true } }

/-- A slave that listens. -/
def listeningDev : State :=
  { slaveDev with
    slv := { slaveDev.slv with state := .receiving, run := true }
    dec := { slaveDev.dec with run := true, alive := true } }

/-- A device whose decoder has handed over `r`. -/
def heard (r : TransmissionResult) (s : State) : State :=
  { s with hslot := some r, dec := { s.dec with run := false, alive := false } }

/-- A device that transmits one slot of 16 bits. -/
def pushingDev (slot : Nat) : State :=
  { plainDev with
    enc := { plainDev.enc with phase := .transmitting, bits := List.replicate 16 true, slot := slot }
    sched := [.enc, .enc, .enc], snkIn := [true, true, true] }

/-- The action of vector V80. -/
def hi : Action := { addr := 0x07, cmd := some 0x02, data := some [0x68, 0x69], bc := false }

/-- The next state, if there is one. -/
def next? (r : Host.Outcome State Fault Refusal) : Option State :=
  match r with
  | .next t => some t
  | _ => none

/-- The response of an operation: RES_CODE, then RES_BUF. -/
def response (i : Instr) (s : State) : Option (List Byte) :=
  (next? (exec i s)).map fun t => errCode t.resCode :: t.resBuf

/-- The configuration records of section 9.0, with the `given` byte and the sampled fields as parameters. -/
def recS8 (given : Byte) : List Byte :=
  [0x00, 0x00, given, 0x00, 0x00, 0x00, 0xBB, 0x80, 0x00, 0x04, 0x00, 0x00, 0x42, 0x68, 0x00, 0x00, 0x00, 0x28]
    ++ List.replicate 24 0 ++ [0x00, 0x00, 0x10, 0x00, 0x00, 0x00, 0x00, 0x03, 0x00, 0x00, 0x00, 0x0A]

def recS9 (role addr : Byte) : List Byte :=
  [role, addr, 0x60, 0x00, 0x00, 0x00, 0xBB, 0x80, 0x00, 0x10, 0x00, 0x00, 0x46, 0x50, 0x00, 0x00, 0x00, 0x14]
    ++ List.replicate 24 0 ++ [0x00, 0x00, 0x20, 0x00, 0x00, 0x00, 0x00, 0x03, 0x00, 0x00, 0x00, 0x0A]

/-! ### Ill-formed terms, one for each check of R90, R91, R94, R95, R122, R123, R264 -/

theorem test_wf_flags_must_be_zero : (Instr.hex2bin ⟨1, 0, 0, [0x36]⟩).wellFormed = false := by decide
theorem test_wf_a_must_be_zero : (Instr.encLdhex ⟨0, 1, 0, []⟩).wellFormed = false := by decide
theorem test_wf_b_must_be_zero : (Instr.mSetto ⟨0, 0, 1, [0, 0, 0, 1]⟩).wellFormed = false := by decide
theorem test_wf_no_payload_allowed : (Instr.rst (pay [0])).wellFormed = false := by decide
theorem test_wf_payload_of_255 : (Instr.hex2bin (pay (List.replicate 255 0x30))).wellFormed = true
    ∧ (Instr.hex2bin (pay (List.replicate 256 0x30))).wellFormed = false := by decide +kernel
theorem test_wf_flag_outside_cv_dv : (Instr.mSend ⟨4, 0, 0, []⟩).wellFormed = false := by decide
theorem test_wf_command_without_cv : (Instr.frmBuild ⟨0, 7, 6, []⟩).wellFormed = false := by decide
theorem test_wf_data_without_dv : (Instr.encLdfrm ⟨1, 7, 6, [1]⟩).wellFormed = false := by decide
theorem test_wf_broadcast_has_no_address : (Instr.mSendbc ⟨1, 7, 6, []⟩).wellFormed = false := by decide
theorem test_wf_flag_outside_av : (Instr.frmParse ⟨2, 0, 0, []⟩).wellFormed = false := by decide
theorem test_wf_address_without_av : (Instr.frmParse ⟨0, 7, 0, []⟩).wellFormed = false := by decide
theorem test_wf_parse_b_must_be_zero : (Instr.frmParse ⟨4, 7, 1, []⟩).wellFormed = false := by decide
theorem test_wf_message_of_four_bits : (Instr.fecEnc ⟨0, 0x16, 0, []⟩).wellFormed = false := by decide
theorem test_wf_word_has_no_payload : (Instr.fecDec ⟨0, 0x16, 0, [1]⟩).wellFormed = false := by decide
theorem test_wf_binary_characters : (Instr.bstr2arr (pay [0x30, 0x32])).wellFormed = false := by decide
theorem test_wf_bit_array_values : (Instr.bin2hex (pay [0, 1, 2, 0])).wellFormed = false := by decide
theorem test_wf_bit_array_length : (Instr.bin2hex (pay [0, 1, 1])).wellFormed = false := by decide
theorem test_wf_timeout_length : (Instr.mSetto (pay [0, 0, 1])).wellFormed = false := by decide
theorem test_wf_record_length : (Instr.cfg (pay ((recS8 0x70).take 53))).wellFormed = false := by decide
theorem test_wf_record_role : (Instr.cfg (pay (recS9 0x03 0x00))).wellFormed = false := by decide
theorem test_wf_record_master_address : (Instr.cfg (pay (recS9 0x01 0x07))).wellFormed = false := by decide
theorem test_wf_record_given_bit_7 : (Instr.cfg (pay (recS8 0xF0))).wellFormed = false := by decide
theorem test_wf_record_values_bit_2 : (Instr.cfg (pay ((recS8 0x70).set 3 0x04))).wellFormed = false := by decide
theorem test_wf_record_value_not_given : (Instr.cfg (pay ((recS8 0x70).set 3 0x01))).wellFormed = false
    ∧ (Instr.cfg (pay ((recS8 0x60).set 3 0x02))).wellFormed = false := by decide
theorem test_wf_record_fraction_not_given : (Instr.cfg (pay ((recS8 0x70).set 25 0x01))).wellFormed = false
    ∧ (Instr.cfg (pay ((recS8 0x70).set 26 0x01))).wellFormed = false
    ∧ (Instr.cfg (pay ((recS8 0x70).set 41 0x01))).wellFormed = false := by decide
theorem test_wf_record_nfft_not_given : (Instr.cfg (pay (recS8 0x50))).wellFormed = false := by decide
theorem test_wf_record_threshold_not_given : (Instr.cfg (pay (recS8 0x30))).wellFormed = false := by decide
theorem test_wf_data_span : (Instr.stx 7 []).wellFormed = false ∧ (Instr.stx 7 [0x41, 0x03]).wellFormed = false
    ∧ (Instr.stx 7 (List.replicate 128 0x55)).wellFormed = false := by decide +kernel
theorem test_wf_other_command : (Instr.cmdOther 7 0x02).wellFormed = false ∧ (Instr.cmdOther 7 0x06).wellFormed = false
    ∧ (Instr.cmdOther 7 0x15).wellFormed = false := by decide

/-! ### Decoding: words written out from the layouts of R90, R92 and R102, R113 -/

/-- A header's fields stand as opcode, flags, a, b, len; the packet ends `len` bytes after it. -/
theorem test_decode_system :
    decodePacket ([0x01, 0x00, 0x00, 0x00, 0x36] ++ recS8 0x70) = .ok (.cfg (pay (recS8 0x70)), []) ∧
    decodePacket [0x02, 0x00, 0x00, 0x00, 0x00] = .ok (.rst (pay []), []) ∧
    decodePacket [0x03, 0x00, 0x00, 0x00, 0x00, 0x03] = .ok (.rdst (pay []), [0x03]) := ⟨rfl, rfl, rfl⟩
theorem test_decode_converters :
    decodePacket [0x10, 0x00, 0x00, 0x00, 0x03, 0x2D, 0x36, 0x43] = .ok (.hex2bin (pay [0x2D, 0x36, 0x43]), []) ∧
    decodePacket [0x11, 0x00, 0x00, 0x00, 0x04, 0x30, 0x31, 0x31, 0x30] =
      .ok (.bstr2arr (pay [0x30, 0x31, 0x31, 0x30]), []) ∧
    decodePacket [0x12, 0x00, 0x00, 0x00, 0x04, 0x01, 0x01, 0x01, 0x01] =
      .ok (.bin2hex (pay [0x01, 0x01, 0x01, 0x01]), []) := ⟨rfl, rfl, rfl⟩
theorem test_decode_fec :
    decodePacket [0x18, 0x00, 0x06, 0x00, 0x00] = .ok (.fecEnc ⟨0, 0x06, 0, []⟩, []) ∧
    decodePacket [0x19, 0x00, 0xCC, 0x00, 0x00] = .ok (.fecDec ⟨0, 0xCC, 0, []⟩, []) := ⟨rfl, rfl⟩
theorem test_decode_encoder :
    decodePacket [0x20, 0x00, 0x00, 0x00, 0x02, 0x36, 0x43] = .ok (.encLdhex (pay [0x36, 0x43]), []) ∧
    decodePacket [0x21, 0x01, 0x07, 0x06, 0x00] = .ok (.encLdfrm ⟨0x01, 0x07, 0x06, []⟩, []) ∧
    decodePacket [0x22, 0x00, 0x00, 0x00, 0x00] = .ok (.encRun (pay []), []) := ⟨rfl, rfl, rfl⟩
theorem test_decode_decoder :
    decodePacket [0x30, 0x00, 0x00, 0x00, 0x00] = .ok (.decStart (pay []), []) ∧
    decodePacket [0x31, 0x00, 0x00, 0x00, 0x00] = .ok (.decStop (pay []), []) ∧
    decodePacket [0x32, 0x00, 0x00, 0x00, 0x00] = .ok (.decRdhex (pay []), []) ∧
    decodePacket [0x33, 0x00, 0x00, 0x00, 0x00] = .ok (.decRdfrm (pay []), []) := ⟨rfl, rfl, rfl, rfl⟩
theorem test_decode_frame_codec :
    decodePacket [0x40, 0x03, 0x07, 0x02, 0x02, 0x68, 0x69] = .ok (.frmBuild ⟨0x03, 0x07, 0x02, [0x68, 0x69]⟩, []) ∧
    decodePacket [0x41, 0x04, 0x07, 0x00, 0x05, 0x01, 0x07, 0x06, 0x05, 0x04] =
      .ok (.frmParse ⟨0x04, 0x07, 0x00, [0x01, 0x07, 0x06, 0x05, 0x04]⟩, []) := ⟨rfl, rfl⟩
theorem test_decode_master :
    decodePacket [0x50, 0x03, 0x07, 0x02, 0x02, 0x68, 0x69] = .ok (.mSend ⟨0x03, 0x07, 0x02, [0x68, 0x69]⟩, []) ∧
    decodePacket [0x51, 0x03, 0x00, 0x02, 0x02, 0x68, 0x69] = .ok (.mSendbc ⟨0x03, 0x00, 0x02, [0x68, 0x69]⟩, []) ∧
    decodePacket [0x52, 0x00, 0x00, 0x00, 0x00] = .ok (.mIdle (pay []), []) ∧
    decodePacket [0x53, 0x00, 0x00, 0x00, 0x00] = .ok (.mStop (pay []), []) ∧
    decodePacket [0x54, 0x00, 0x00, 0x00, 0x04, 0x00, 0x00, 0x03, 0xE8] =
      .ok (.mSetto (pay [0x00, 0x00, 0x03, 0xE8]), []) := ⟨rfl, rfl, rfl, rfl, rfl⟩
theorem test_decode_slave :
    decodePacket [0x58, 0x00, 0x00, 0x00, 0x00] = .ok (.sStart (pay []), []) ∧
    decodePacket [0x59, 0x00, 0x00, 0x00, 0x00] = .ok (.sStop (pay []), []) := ⟨rfl, rfl⟩
theorem test_decode_received_commands :
    decodeFrame 16 (some 0x07) [0x01, 0x07, 0x02, 0x68, 0x69, 0x03, 0x08, 0x04] = .ok (.stx 0x07 [0x68, 0x69]) ∧
    decodeFrame 16 (some 0x00) [0x01, 0x00, 0x06, 0x05, 0x04] = .ok (.ack 0x00) ∧
    decodeFrame 16 (some 0x00) [0x01, 0x00, 0x15, 0x05, 0x04] = .ok (.nak 0x00) ∧
    decodeFrame 16 (some 0x07) [0x01, 0xFF, 0x41, 0x05, 0x04] = .ok (.cmdOther 0xFF 0x41) := ⟨rfl, rfl, rfl, rfl⟩
/-- What is no instruction, by name: an unlisted opcode (V92), a packet that has not arrived whole (R90), V43. -/
theorem test_decode_rejects :
    decodePacket [0x00, 0x00, 0x00, 0x00, 0x01, 0xAA, 0x22] = .error (.badOpcode 0x00 [0x22]) ∧
    decodePacket [0x54, 0x00, 0x00, 0x00, 0x04, 0x00] = .error .incomplete ∧
    decodeFrame 16 (some 0x07) [0x01, 0x07, 0x06, 0x06, 0x04] = .error (.checksumIncorrect, .ok) := ⟨rfl, rfl, rfl⟩

/-- The rows of spec/opcode_table.json, and that the first step after reset runs each of their words: RES_CODE as R316
says for a host operation; for a received command an event in EVT. -/
theorem test_table_words :
    [0x01, 0x02, 0x03, 0x10, 0x11, 0x12, 0x18, 0x19, 0x20, 0x21, 0x22, 0x30, 0x31, 0x32, 0x33, 0x40, 0x41, 0x50, 0x51,
      0x52, 0x53, 0x54, 0x58, 0x59].all (fun op => ((decodeTableWord 40 (op * 2 ^ 32)).bind opcodeOf) == some (BitVec.ofNat 8 op))
    ∧ decodeTableWord 8 0x02 = some (.stx 0x00 [0x00]) ∧ decodeTableWord 8 0x06 = some (.ack 0x00)
    ∧ decodeTableWord 8 0x15 = some (.nak 0x00) ∧ decodeTableWord 8 0x00 = some (.cmdOther 0x00 0x00) := by decide
theorem test_first_step_host :
    (next? (step (State.reset.withFetchWord 40 0x0200000000))).map (·.resCode) = some .ok ∧
    (next? (step (State.reset.withFetchWord 40 0x2200000000))).map (·.resCode) = some .notConfigured ∧
    (next? (step (State.reset.withFetchWord 40 0x2000000003))).map (·.hostIn) = some [] := by decide
theorem test_first_step_frame :
    [0x00, 0x02, 0x06, 0x15].map (fun w => (next? (step (State.reset.withFetchWord 8 w))).map fun t => t.evt.map eventCode)
      = [some [0x15, 0x13], some [0x15, 0x13], some [0x15, 0x11, 0x03], some [0x15, 0x12, 0x13]] := by decide

/-! ### Meanings -/

/-- V90, V91. -/
theorem test_cfg : [recS8 0x70, recS9 0x01 0x00, recS9 0x02 0x07, recS9 0x02 0xFF, (recS8 0x70).set 9 0x03,
      (recS8 0x70).set 44 0x08].map (fun p => response (.cfg (pay p)) blank)
    = [some [0x00], some [0x00], some [0x00], some [0x16], some [0x16], some [0x16]] := by decide +kernel
/-- V57, V58: the lengths and the bin windows of the first configuration. -/
theorem test_cfg_derives : (next? (exec (.cfg (pay (recS8 0x70))) blank)).map
      (fun t => ([t.rom.nEnc, t.rom.nDec, t.rom.nBrk, t.rom.lFade], t.rom.kLo, t.rom.kHi))
    = some ([7200, 2400, 2400, 120], [1450, 1457, 1464, 1471], [1455, 1461, 1468, 1475]) := by decide +kernel
/-- V93. -/
theorem test_rst : (next? (exec (.rst (pay [])) listeningDev)).map
    (fun t => (t.cfgValid, t.dec.run, t.slv.run, t.timeoutMs, errCode t.resCode)) = some (false, false, false, 20000, 0) := by
  decide
/-- V89 (SRUN, SST, ROLE 2, DALV, DRUN, CFGV) and R50. -/
theorem test_rdst : response (.rdst (pay [])) listeningDev = some [0x00, 0x00, 0x00, 0x62, 0x0D] ∧
    response (.rdst (pay [])) State.reset = some [0x00, 0x00, 0x00, 0x00, 0x00] := by decide
/-- V2. -/
theorem test_hex2bin :
    response (.hex2bin (pay [0x2D, 0x36, 0x43])) plainDev = some [0x00, 0x30, 0x31, 0x31, 0x30, 0x31, 0x31, 0x30, 0x30] ∧
    response (.hex2bin (pay [0x47, 0x31])) plainDev = some [0x10] := by decide
/-- V3. -/
theorem test_bstr2arr : response (.bstr2arr (pay [0x30, 0x31, 0x31, 0x30])) plainDev = some [0x00, 0x00, 0x01, 0x01, 0x00] ∧
    response (.bstr2arr (pay [0x30, 0x32])) plainDev = some [0x05] := by decide
/-- V4. -/
theorem test_bin2hex : response (.bin2hex (pay [0, 1, 1, 0, 1, 1, 0, 0])) plainDev = some [0x00, 0x36, 0x63] ∧
    response (.bin2hex (pay [0, 1, 1])) plainDev = some [0x05] := by decide
/-- S1: the sixteen code words. -/
theorem test_fec_enc :
    ((List.range 16).map fun m => response (.fecEnc ⟨0, BitVec.ofNat 8 m, 0, []⟩) plainDev)
      = [0x00, 0xD2, 0x55, 0x87, 0x99, 0x4B, 0xCC, 0x1E, 0xE1, 0x33, 0xB4, 0x66, 0x78, 0xAA, 0x2D, 0xFF].map
        (fun w => some [0x00, w]) := by decide +kernel
/-- S2 (position 7 of message 6; words 80, 7F) and S3 (two flips of CC). -/
theorem test_fec_dec :
    [0xCD, 0x80, 0x7F, 0x4D].map (fun w => response (.fecDec ⟨0, w, 0, []⟩) plainDev)
      = [some [0x00, 0x06], some [0x00, 0x00], some [0x00, 0x0F], some [0x11]] := by decide
/-- P1, V92. -/
theorem test_enc_ldhex : (next? (exec (.encLdhex (pay [0x36, 0x43])) simpleDev)).map (·.enc.hex) = some (some [0x36, 0x43]) ∧
    response (.encLdhex (pay [0x36, 0x43])) plainDev = some [0x07] := by decide
/-- V31, V92. -/
theorem test_enc_ldfrm : (next? (exec (.encLdfrm ⟨0x03, 0x07, 0x02, [0x68, 0x69]⟩) plainDev)).map (·.enc.frm)
      = some (some ⟨0x07, 0x02, some [0x68, 0x69], 0x08⟩) ∧
    response (.encLdfrm ⟨0x01, 0x07, 0x06, []⟩) simpleDev = some [0x07] := by decide
/-- V10: `"6C"` on 16 channels; V92: nothing loaded, in Simple and in DataFrame mode (the latter's event by R173: log 16). -/
theorem test_enc_run :
    (next? (exec (.encRun (pay [])) { simpleDev with enc := { simpleDev.enc with hex := some [0x36, 0x43] } })).map
      (fun t => (bits2bytes t.enc.bits, t.enc.phase, t.hostWait)) = some ([0xCC, 0x78], .transmitting, true) ∧
    (next? (exec (.encRun (pay [])) simpleDev)).map (fun t => (errCode t.resCode, t.evt, t.enc.phase))
      = some (0x10, [.logSendFailed .invalidHexData], .idle) ∧
    (next? (exec (.encRun (pay [])) plainDev)).map (fun t => (errCode t.resCode, t.evt, t.enc.phase))
      = some (0x17, [.logSendFailed .noPending], .idle) := by decide
/-- V92 (DEC.START twice). -/
theorem test_dec_start : (next? (exec (.decStart (pay [])) { plainDev with dec := { plainDev.dec with raw := [true] } })).map
      (fun t => (t.dec.run, t.dec.alive, t.dec.raw, t.dec.old.length)) = some (true, true, [], 16) ∧
    response (.decStart (pay [])) { plainDev with dec := { plainDev.dec with alive := true } } = some [0x08] := by decide
/-- V74: the decoder stays alive until its next loop top. -/
theorem test_dec_stop : (next? (exec (.decStop (pay [])) { plainDev with dec := { plainDev.dec with run := true, alive := true } })).map
      status = some 0x00000009 := by decide
/-- P1, V92. -/
theorem test_dec_rdhex : response (.decRdhex (pay [])) { simpleDev with dec := { simpleDev.dec with rxHex := [0x36, 0x63] } }
      = some [0x00, 0x36, 0x63] ∧ response (.decRdhex (pay [])) plainDev = some [0x07] := by decide
/-- V75: the status byte after a source error, and the slot taken. -/
theorem test_dec_rdfrm : (next? (exec (.decRdfrm (pay [])) (heard .sourceError plainDev))).map
      (fun t => (t.resBuf, t.hslot)) = some ([0x02], none) ∧
    response (.decRdfrm (pay [])) simpleDev = some [0x07] := by decide
/-- V31, V33. -/
theorem test_frm_build :
    response (.frmBuild ⟨0x03, 0x07, 0x02, [0x68, 0x69]⟩) plainDev = some [0x00, 0x01, 0x07, 0x02, 0x68, 0x69, 0x03, 0x08, 0x04] ∧
    response (.frmBuild ⟨0x01, 0x07, 0x02, []⟩) plainDev = some [0x13] := by decide
/-- V48, V42. -/
theorem test_frm_parse :
    response (.frmParse (pay [0x01, 0xFF, 0x02, 0x41, 0x03, 0x99, 0x99, 0x07, 0x04])) plainDev
      = some [0x00, 0x00, 0x00, 0x01, 0xFF, 0x02, 0x07, 0x01, 0x01, 0x41] ∧
    response (.frmParse ⟨0x04, 0x07, 0, [0x01, 0x08, 0x06, 0x05, 0x04]⟩) plainDev = some [0x00, 0x05, 0x02, 0x00] := by decide
/-- V80, V85. -/
theorem test_m_send : (next? (exec (.mSend ⟨0x03, 0x07, 0x02, [0x68, 0x69]⟩) masterDev)).map (·.mst.pend) = some (some hi) ∧
    response (.mSend ⟨0x03, 0x07, 0x02, [0x68, 0x69]⟩) (sendingDev hi) = some [0x08] := by decide
/-- V83. -/
theorem test_m_sendbc : (next? (exec (.mSendbc ⟨0x03, 0x00, 0x02, [0x68, 0x69]⟩) masterDev)).map (·.mst.pend)
      = some (some { addr := 0xFF, cmd := some 0x02, data := some [0x68, 0x69], bc := true }) := by decide
/-- P3. -/
theorem test_m_idle : response (.mIdle (pay [])) masterDev = some [0x00, 0x01] ∧
    response (.mIdle (pay [])) (sendingDev hi) = some [0x00, 0x00] := by decide
/-- V86, V92. -/
theorem test_m_stop : (next? (exec (.mStop (pay [])) (sendingDev hi))).map (·.mst.stopReq) = some true ∧
    response (.mStop (pay [])) slaveDev = some [0x06] := by decide
/-- V80. -/
theorem test_m_setto : (next? (exec (.mSetto (pay [0x00, 0x00, 0x03, 0xE8])) masterDev)).map (·.timeoutMs) = some 1000 ∧
    response (.mSetto (pay [0x03, 0xE8])) masterDev = some [0x05] := by decide
/-- P3, R317. -/
theorem test_s_start : (next? (exec (.sStart (pay [])) slaveDev)).map (·.slv.run) = some true ∧
    response (.sStart (pay [])) masterDev = some [0x06] := by decide
/-- V89: STATUS after S.STOP. -/
theorem test_s_stop : (next? (exec (.sStop (pay [])) listeningDev)).map status = some 0x0000220D := by decide
/-- V88 (first row), V82 (a data Frame to the master). -/
theorem test_stx :
    (next? (exec (.stx 0x07 [0x68, 0x69]) listeningDev)).map (fun t => (t.evt, t.slv.reply, t.slv.state))
      = some ([.logParseResult .parsingOk .ok, .onDataReceived [0x68, 0x69]], some 0x06, .idle) ∧
    (next? (exec (.stx 0x00 [0x41]) (awaitingDev hi))).map (fun t => (t.evt, t.mst.state))
      = some ([.logParseResult .parsingOk .ok, .logRetry 1], .sending) := by decide
/-- P3 (step 14), V88 (an ACK sent to the slave). -/
theorem test_ack :
    (next? (exec (.ack 0x00) (awaitingDev hi))).map (fun t => (t.evt, t.mst.state))
      = some ([.logParseResult .parsingOk .ok, .logAckReceived, .onTransmissionConfirmed], .idle) ∧
    (next? (exec (.ack 0x07) listeningDev)).map (fun t => (t.evt, t.slv.reply))
      = some ([.logParseResult .parsingOk .ok, .onCommandReceived 0x06], some 0x06) := by decide
/-- V81. -/
theorem test_nak :
    (next? (exec (.nak 0x00) (awaitingDev hi))).map (fun t => (t.evt, t.mst.retries, t.mst.state))
      = some ([.logParseResult .parsingOk .ok, .logNakReceived, .logRetry 1], 1, .sending) := by decide
/-- V88 (a broadcast command is not answered), and a Frame for address 8. -/
theorem test_cmd_other :
    (next? (exec (.cmdOther 0xFF 0x41) listeningDev)).map (fun t => (t.evt, t.slv.reply))
      = some ([.logParseResult .parsingOk .broadcast, .onCommandReceived 0x41], none) ∧
    (next? (exec (.cmdOther 0x08 0x41) listeningDev)).map (fun t => (t.evt, t.slv.reply))
      = some ([.logParseResult .otherRecipient .otherRecipient], none) := by decide

/-! ### Agents -/

/-- V66: a frame with all channels found after silence is read, a second one without a break is not (R209: the sixteen bits
are one cycle, and decode to the byte 00). -/
theorem test_read_event :
    let found := (List.range 16).map fun i => some (18000 + 40 * (i : Rat))
    (trackFrame found plainDev).dec.rxBytes = [0x00] ∧
    (trackFrame (found.map fun d => d.map (· + 20)) (trackFrame found plainDev)).dec.rxBytes = [0x00] := by decide +kernel
/-- V73: EOT by value. -/
theorem test_end_of_transmission : (newDataFrame 4096 (bytes2bits [0x01, 0x04, 0x06]) plainDev.dec).rxBytes = [0x01, 0x04] ∧
    (newDataFrame 4096 (bytes2bits [0x01, 0x04, 0x06]) plainDev.dec).eot = true := by decide
/-- R214: with room for one byte only the EOT byte is dropped, sets RX_OVF and still sets EOT_FLAG. -/
theorem test_overflow : (newDataFrame 1 (bytes2bits [0x01, 0x04, 0x06]) plainDev.dec).rxBytes = [0x01] ∧
    (newDataFrame 1 (bytes2bits [0x01, 0x04, 0x06]) plainDev.dec).eot = true ∧
    (newDataFrame 1 (bytes2bits [0x01, 0x04, 0x06]) plainDev.dec).ovf = true := by decide
/-- R9, U12, U13: a device with CH_MAX 32 accepts 32 channels where the default device does not (V91), and one with HEX_MAX 1
takes a string of one character only. -/
theorem test_parameters :
    let wide := { blank with params := { blank.params with chMax := 32 } }
    response (.cfg (pay ((recS8 0x70).set 9 0x20))) blank = some [0x16] ∧
    response (.cfg (pay ((recS8 0x70).set 9 0x20))) wide = some [0x00] ∧
    (let short := { simpleDev with params := { simpleDev.params with hexMax := 1 } };
      response (.encLdhex (pay [0x36])) short = some [0x00] ∧ response (.encLdhex (pay [0x36, 0x43])) short = some [0x05]) := by
  decide +kernel
/-- V34: the padded lengths and the checksum 8 of one byte on 32 channels. -/
theorem test_padding : [(32, 1), (32, 2), (32, 3), (32, 9), (64, 1), (64, 3), (64, 9), (16, 9)].map
      (fun (n, len) => (frmPad n (List.replicate len 0x41)).length) = [2, 2, 4, 10, 2, 6, 10, 9] ∧
    (frmBuild 32 7 (some 2) (some [0x41])).toOption.map (·.checksum) = some 8 := by decide
/-- V84: a build error ends the send. -/
theorem test_master_build_error : (next? (agentTurn .master (sendingDev { hi with data := none }))).map
    (fun t => (t.mst.err, t.mst.state, t.evt, status t)) = some (.missingData, .idle, [.logSendFailed .missingData], 0x00130101) := by
  decide
/-- V12: the master's transmission of `"hi"` to address 7. -/
theorem test_master_transmits : (next? (agentTurn .master (sendingDev hi))).map (fun t => bits2bytes t.enc.bits)
    = some [0x00, 0xD2, 0x00, 0x1E, 0x00, 0x55, 0xCC, 0xE1, 0xCC, 0x33, 0x00, 0x87, 0x00, 0xE1, 0x00, 0x99] := by
  decide +kernel

/-! ### Witnesses: states and operands that meet the hypotheses of the obligations -/

/-- A configured device satisfies the configuration's invariant. -/
theorem configInv_dev (r : Role) (m : Mode) (h : r = .standalone ∨ m = .dataFrame) : ConfigInv (dev r m) where
  legal _ := by
    cases r <;> cases m <;> first | (exfalso; revert h; decide) | decide +kernel
  ranges _ := ⟨(by decide +kernel : (0 : Rat) < 1 / 10), (by decide +kernel : (0 : Rat) ≤ 1 / 5),
    (by decide +kernel : (0 : Rat) ≤ 1 / 20), (by decide +kernel : (1 / 20 : Rat) ≤ 1 / 2),
    fun _ => (by decide +kernel : (0 : Rat) ≤ 3 / 10)⟩
  fresh _ := rfl
  bare h := absurd (show true = false from h) (by decide)
  noMaster _ _ := ⟨rfl, rfl⟩
  noSlave _ _ := rfl

theorem witness_UnconfiguredAgentsDoNothing : ConfigInv blank ∧ blank.cfgValid = false :=
  ⟨{ legal := fun h => absurd h (by decide), ranges := fun h => absurd h (by decide), fresh := fun h => absurd h (by decide),
     bare := fun _ => ⟨rfl, ⟨_, rfl⟩, rfl, rfl, rfl, rfl, rfl, rfl⟩, noMaster := fun h => absurd h (by decide),
     noSlave := fun h => absurd h (by decide) }, rfl⟩

/-- For the operations without operands: the form, and a configured device of each role. -/
theorem witness_RdstAnswersStatus : formPlain (pay []) = true ∧ plainDev.cfgValid = true ∧ plainDev.cfg.role = .standalone
    ∧ masterDev.cfgValid = true ∧ masterDev.cfg.role = .master ∧ slaveDev.cfgValid = true ∧ slaveDev.cfg.role = .slave := by
  decide

theorem witness_RstIsTheResetTransition : formPlain (pay []) = true := by decide

theorem witness_CfgWritesTheConfiguration :
    (formCfg (pay (recS8 0x70)) = true ∧ plainDev.cfgValid = true) ∧
    (formCfg (pay ((recS8 0x70).set 9 0x03)) = true ∧ blank.cfgValid = false ∧
      cfgValidRecord 16 ((recS8 0x70).set 9 0x03) blank.cfg = false) ∧
    (formCfg (pay (recS9 0x02 0xFE)) = true ∧ blank.cfgValid = false ∧ cfgValidRecord 16 (recS9 0x02 0xFE) blank.cfg = true) ∧
    blank.params.chMax = 16 := by
  decide +kernel

/-- Channel counts at both ends of the range of R311, and on either side of a slave's addresses. -/
theorem witness_CfgChecksTheTenConditions :
    [(recS8 0x70).set 9 0x01, (recS8 0x70).set 9 0x00, recS9 0x02 0x01, recS9 0x02 0x00, recS9 0x02 0xFE, recS9 0x02 0xFF].map
        (fun p => (formCfg (pay p), cfgValidRecord blank.params.chMax p blank.cfg))
      = [(true, true), (true, false), (true, true), (true, false), (true, true), (true, false)] ∧
    blank.cfgValid = false := by decide +kernel

theorem witness_ChannelWindowsLieInsideTheBand : ConfigInv plainDev ∧ plainDev.cfgValid = true ∧
    plainDev.cfg.nfftValid = true ∧ 0 + 1 < plainDev.cfg.nCh ∧ 15 < plainDev.cfg.nCh :=
  ⟨configInv_dev .standalone .dataFrame (.inl rfl), by decide⟩

/-- The digits at the ends of the three ranges, and their neighbours outside. -/
theorem witness_Hex2binConvertsDigitByDigit :
    formPayload (pay [0x2D, 0x30, 0x39, 0x41, 0x46, 0x61, 0x66]) = true ∧ blank.cfgValid = false ∧ plainDev.cfgValid = true ∧
    (∀ c ∈ ([0x30, 0x39, 0x41, 0x46, 0x61, 0x66] : List Byte), ∃ v < 16,
      c = BitVec.ofNat 8 (if v < 10 then 0x30 + v else 0x61 + (v - 10)) ∨
        c = BitVec.ofNat 8 (if v < 10 then 0x30 + v else 0x41 + (v - 10))) ∧
    (∀ c ∈ ([0x2F, 0x3A, 0x40, 0x47, 0x60, 0x67, 0x2D] : List Byte), ∀ v < 16,
      c ≠ BitVec.ofNat 8 (if v < 10 then 0x30 + v else 0x61 + (v - 10)) ∧
        c ≠ BitVec.ofNat 8 (if v < 10 then 0x30 + v else 0x41 + (v - 10))) := by decide

theorem witness_Bstr2arrConvertsEachCharacter :
    formPayload (pay [0x30, 0x31]) = true ∧ (∀ c ∈ (pay [0x30, 0x31]).payload, c = 0x30 ∨ c = 0x31) ∧
    formPayload (pay [0x32]) = true ∧ (∃ c ∈ (pay [0x32]).payload, c ≠ 0x30 ∧ c ≠ 0x31) := by decide

theorem witness_Bin2hexConvertsEachNibble :
    formPayload (pay [0, 1, 1, 0]) = true ∧ (∀ c ∈ (pay [0, 1, 1, 0]).payload, c = 0x00 ∨ c = 0x01) ∧
    (pay [0, 1, 1, 0]).payload.length % 4 = 0 ∧ (pay [0, 1, 1]).payload.length % 4 ≠ 0 ∧
    (∀ c ∈ (pay [0, 1, 1]).payload, c = 0x00 ∨ c = 0x01) := by decide

theorem witness_HexRoundTripNormalisesCase :
    ([0x30, 0x39, 0x41, 0x46, 0x61, 0x66] : List Byte) ≠ [] ∧
    ∀ c ∈ ([0x30, 0x39, 0x41, 0x46, 0x61, 0x66] : List Byte),
      (0x30 ≤ c.toNat ∧ c.toNat ≤ 0x39) ∨ (0x41 ≤ c.toNat ∧ c.toNat ≤ 0x46) ∨ (0x61 ≤ c.toNat ∧ c.toNat ≤ 0x66) := by decide

theorem witness_BytesAndBitsAreInverse : ([0x01] : List Byte)[0]? = some 0x01 ∧ 7 < 8 ∧
    ([true, false, true, false, true, false, true, false] : List Bool).length % 8 = 0 := by decide

theorem witness_FecEncAnswersTheCodeWord :
    formNibble ⟨0, 0x0F, 0, []⟩ = true ∧ formNibble ⟨0, 0x00, 0, []⟩ = true ∧ plainDev.cfgValid = true := by decide

theorem witness_FecDecCorrectsBySyndrome : formByte ⟨0, 0xCC, 0, []⟩ = true ∧
    wordSyndrome 0xCC = [false, false, false, false] ∧ wordParity 0x01 = true ∧
    (wordSyndrome 0x81 ≠ [false, false, false, false] ∧ wordParity 0x81 = false) := by decide

theorem witness_FecCorrectsOneAndDetectsTwo : (0x0F : Byte).toNat < 16 ∧ plainDev.cfgValid = true := by decide

theorem witness_FecStreamsAreInverse : ([true, false, true, true] : List Bool).length % 4 = 0 ∧
    ([] : List Bool).length % 8 = 0 ∧ (byteBits 0x81).length = 8 ∧ fecDecBits (byteBits 0x81) = none := by decide

theorem witness_FrmBuildAnswersTheWireBytes :
    (formCmdData ⟨0, 7, 0, []⟩ = true ∧ opCV ⟨0, 7, 0, []⟩ = false) ∧
    (formCmdData ⟨1, 7, 2, []⟩ = true ∧ opCV ⟨1, 7, 2, []⟩ = true ∧ opDV ⟨1, 7, 2, []⟩ = false) ∧
    (formCmdData ⟨3, 7, 2, List.replicate 128 0x55⟩ = true ∧ 127 < (List.replicate 128 (0x55 : Byte)).length) ∧
    (formCmdData ⟨3, 7, 2, List.replicate 127 0x55⟩ = true ∧ opDV ⟨3, 7, 2, List.replicate 127 0x55⟩ = true) ∧
    (formCmdData ⟨3, 7, 6, [0x78]⟩ = true ∧ opCV ⟨3, 7, 6, [0x78]⟩ = true ∧ (6 : Byte) ≠ STX) := by decide +kernel

theorem witness_FrmParseAnswersTheRecord : formParse ⟨4, 7, 0, [1, 7, 6, 5, 4]⟩ = true ∧ formParse ⟨0, 0, 0, []⟩ = true := by
  decide

/-- Rows of R247 at the boundary lengths: four bytes, five bytes, an STX Frame of five bytes without ETX, data of 127. -/
theorem witness_FrmParseFollowsTheTable :
    ([0x01, 0x07, 0x06, 0x05] : List Byte).length < 5 ∧ 4 ≤ ([0x07, 0x06, 0x05, 0x04] : List Byte).length ∧
    checkAddress 0x08 (some 0x07) = .otherRecipient ∧ checkAddress 0xFF (some 0x07) = .broadcast ∧
    checkAddress 0x07 (some 0x07) = .ok ∧ (0x06 : Byte) ≠ 0x02 ∧ 2 < ([0x05, 0x04, 0x04] : List Byte).length ∧
    (2 ≤ ([0x05, 0x04] : List Byte).length ∧ (0x03 : Byte) ∉ [0x05, 0x04]) ∧
    (2 ≤ (([] : List Byte) ++ 0x03 :: [0x06]).length ∧ (0x03 : Byte) ∉ ([] : List Byte)) ∧
    (0x03 : Byte) ∉ List.replicate 127 (0x55 : Byte) := by decide +kernel

theorem witness_ParseInvertsBuild : 4 ≤ 4 ∧ ([0x41] : List Byte) ≠ [] ∧ (List.replicate 127 (0x55 : Byte)).length ≤ 127 ∧
    ETX ∉ ([0x41] : List Byte) ∧ ETX ∈ ([0x41, 0x03] : List Byte) ∧ (0x06 : Byte) ≠ STX := by
  decide +kernel

theorem witness_EncLdhexStoresTheString : formPayload (pay [0x36, 0x43]) = true ∧
    (pay [0x36, 0x43]).payload.length ≤ simpleDev.params.hexMax ∧ simpleDev.cfgValid = true ∧
    simpleDev.cfg.role = .standalone ∧ simpleDev.cfg.mode = .simple ∧ simpleDev.enc.phase = .idle ∧
    plainDev.cfg.mode ≠ .simple ∧ (pushingDev 0).enc.phase = .transmitting := by decide

theorem witness_EncLdfrmStoresTheFrame : formCmdData ⟨3, 7, 2, [0x68, 0x69]⟩ = true ∧ plainDev.cfgValid = true ∧
    plainDev.cfg.role = .standalone ∧ plainDev.cfg.mode = .dataFrame ∧ plainDev.enc.phase = .idle ∧
    frmBuild plainDev.cfg.nCh 7 (some 2) (some [0x68, 0x69]) = .ok ⟨0x07, 0x02, some [0x68, 0x69], 0x08⟩ ∧
    frmBuild plainDev.cfg.nCh 7 (some 2) none = .error .missingData ∧ simpleDev.cfg.mode ≠ .dataFrame :=
  ⟨by decide, by decide, by decide, by decide, by decide, rfl, rfl, by decide⟩

theorem witness_EncRunStartsTheTransmission : formPlain (pay []) = true ∧
    (simpleDev.cfg.mode = .simple ∧ simpleDev.enc.phase = .idle ∧ simpleDev.enc.hex = none) ∧
    hex2bin [0x47] = .error .invalidHexData ∧ hex2bin [0x30] = .ok [0x30, 0x30, 0x30, 0x30] ∧
    (plainDev.cfg.mode = .dataFrame ∧ plainDev.enc.phase = .idle ∧ plainDev.enc.frm = none) :=
  ⟨by decide, by decide, rfl, rfl, by decide⟩

theorem witness_EncoderPushStep : (pushingDev 2).sched = .enc :: [.enc, .enc] ∧ (pushingDev 2).enc.phase = .transmitting ∧
    (pushingDev 2).hostWait = false ∧ ({ pushingDev 2 with hostWait := true }).hostWait = true ∧
    ({ pushingDev 2 with snkIn := [false] }).snkIn = false :: [] ∧ (pushingDev 2).snkIn = true :: [true, true] ∧
    (pushingDev 2).enc.slot = (pushingDev 2).enc.bits.length / (pushingDev 2).cfg.nCh + 1 ∧
    (pushingDev 1).enc.slot < (pushingDev 1).enc.bits.length / (pushingDev 1).cfg.nCh + 1 := by decide

theorem witness_TransmissionPushesTheWholeRun : (pushingDev 0).enc.phase = .transmitting ∧ (pushingDev 0).enc.slot = 0 ∧
    (pushingDev 0).sched =
      List.replicate ((pushingDev 0).enc.bits.length / (pushingDev 0).cfg.nCh + 2) Agent.enc ++ ([] : List Agent) ∧
    (pushingDev 0).snkIn =
      List.replicate ((pushingDev 0).enc.bits.length / (pushingDev 0).cfg.nCh + 2) true ++ ([] : List Bool) ∧
    ({ pushingDev 0 with hostWait := true }).hostWait = true := by decide

theorem witness_SlotsAreSilentOutsideTheSound : ConfigInv plainDev ∧ plainDev.cfgValid = true ∧
    (4799 < plainDev.rom.nEnc ∧ 4799 < plainDev.rom.nBrk) ∧
    (9600 < plainDev.rom.nEnc ∧ plainDev.rom.nBrk + plainDev.rom.nAct ≤ 9600) ∧
    (∀ i < (pushingDev 1).cfg.nCh, (pushingDev 1).enc.bits[0 * (pushingDev 1).cfg.nCh + i]? = some true) :=
  ⟨configInv_dev .standalone .dataFrame (.inl rfl), by decide +kernel⟩

theorem witness_DecStartAndStop : formPlain (pay []) = true ∧ plainDev.cfgValid = true ∧ plainDev.cfg.role = .standalone ∧
    plainDev.cfg.nfftValid = true ∧ plainDev.cfg.thrValid = true ∧ plainDev.dec.alive = false ∧
    ({ plainDev with cfg := { plainDev.cfg with nfftValid := false } }).cfg.nfftValid = false ∧
    ({ plainDev with dec := { plainDev.dec with alive := true } }).dec.alive = true := by decide

theorem witness_DecReadOuts : formPlain (pay []) = true ∧ simpleDev.cfg.mode = .simple ∧ plainDev.cfg.mode = .dataFrame ∧
    plainDev.cfg.role = .standalone ∧ masterDev.cfg.role ≠ .standalone := by decide

theorem witness_DecoderTopStep :
    let top := { plainDev with dec := { plainDev.dec with run := true, alive := true }, sched := [.dec] }
    top.sched = .dec :: [] ∧ top.dec.alive = true ∧ top.dec.phase = .top ∧ top.dec.run = true ∧
    (List.replicate top.rom.nDec (0 : Sample)).length = top.rom.nDec ∧ ([] : List Sample).length ≠ top.rom.nDec := by
  decide +kernel

/-- Every sample of silence is 0. -/
theorem silence_getD (n k : Nat) : (List.replicate n (0 : Sample)).getD k 0 = 0 := by
  rw [List.getD_eq_getElem?_getD, List.getElem?_replicate]; split <;> rfl

/-- A pulled frame of silence, with EOT_FLAG clear and set. -/
theorem witness_DecoderBodyStep :
    let body := fun e => { plainDev with
      dec := { plainDev.dec with run := true, alive := true, phase := .haveFrame, eot := e, frameBuf := List.replicate 4800 0 }
      sched := [.dec] }
    ConfigInv (body true) ∧ (body true).cfgValid = true ∧ (body true).cfg.nfftValid = true ∧
    (body true).sched = .dec :: [] ∧ (body true).dec.alive = true ∧ (body true).dec.phase = .haveFrame ∧
    (body true).cfg.mode = .dataFrame ∧ (trackFrame (List.replicate 16 none) (body true)).dec.eot = true ∧
    (trackFrame (List.replicate 16 none) (body false)).dec.eot = false ∧
    (∀ k < (body true).rom.nDec, (body true).dec.frameBuf.getD k 0 = 0) ∧ 0 ≤ (body true).cfg.threshold :=
  have h := configInv_dev .standalone .dataFrame (.inl rfl)
  ⟨⟨h.legal, h.ranges, h.fresh, fun h' => absurd h' (by decide), h.noMaster, h.noSlave⟩, by decide, by decide, by decide,
    by decide, by decide, by decide, by decide +kernel, by decide +kernel,
    fun k _ => silence_getD 4800 k, (by decide +kernel : (0 : Rat) ≤ 3 / 10)⟩

/-- The detected values of a slot of sixteen zeros, of one with a value between the tones, and of silence. -/
theorem witness_FrameTrackingFollowsTheSteps :
    let found : List (Option Rat) := (List.range 16).map fun i => some (18000 + 40 * (i : Rat))
    let off := found.set 15 (some 18610)
    let changed := fun (det : List (Option Rat)) =>
      ∃ i < plainDev.cfg.nCh, plainDev.rom.deltaF < |(det.getD i none).getD 0 - oldAt plainDev.dec.old i|
    found.length = plainDev.cfg.nCh ∧ changed found ∧ (∀ d ∈ found, d ≠ none) ∧
    (∃ i < plainDev.cfg.nCh, oldAt plainDev.dec.old i = 0) ∧
    (∃ i < plainDev.cfg.nCh, plainDev.rom.deltaF < |(off.getD i none).getD 0 - plainDev.rom.low.getD i 0| ∧
      plainDev.rom.deltaF < |(off.getD i none).getD 0 - plainDev.rom.high.getD i 0|) ∧
    (∀ i < plainDev.cfg.nCh, |(found.getD i none).getD 0 - plainDev.rom.low.getD i 0| ≤ plainDev.rom.deltaF ∧
      (List.replicate 16 false)[i]? = some false) ∧
    ¬ changed (List.replicate 16 none) ∧ (changed (found.set 3 none) ∧ ¬ ∀ d ∈ found.set 3 none, d ≠ none) := by
  decide +kernel

/-- Two read events with one frame between them in which a channel is not found. -/
theorem witness_ReadEventsNeedABreak :
    let found : List (Option Rat) := (List.range 16).map fun i => some (18000 + 40 * (i : Rat))
    let missed := found.set 3 none
    (∀ det ∈ found :: [missed], det.length = plainDev.cfg.nCh ∧ some 0 ∉ det) ∧ readEvent plainDev found = true ∧
    readEvent ((found :: [missed]).foldl (fun t det => trackFrame det t) plainDev) found = true := by decide +kernel

/-- A cycle of two code words, one with a double error, and one of eight bits that is not due; a buffer with room and, on a
device with RX_MAX 1, one without. -/
theorem witness_DecodeCycleAccumulates :
    let due := fun (raw : List Bool) => raw ≠ [] ∧ raw.length % plainDev.cfg.nCh = 0 ∧ raw.length % 16 = 0
    due (bytes2bits [0xCC, 0x78]) ∧ fecDecStream (bytes2bits [0xCC, 0x78]) = some (bytes2bits [0x6C]) ∧
    due (bytes2bits [0x4D, 0x78]) ∧ fecDecStream (bytes2bits [0x4D, 0x78]) = none ∧ ¬ due (bytes2bits [0xCC]) ∧
    plainDev.cfg.mode = .dataFrame ∧ plainDev.dec.eot = false ∧ plainDev.dec.rxBytes.length < plainDev.params.rxMax ∧
    simpleDev.cfg.mode = .simple ∧ ¬ (simpleDev.dec.rxHex.length + 2 ≤ ({ simpleDev.params with rxMax := 1 } : Params).rxMax) := by
  decide +kernel

theorem witness_HandoffIsWrittenOnExit :
    let s := { plainDev with
      dec := { plainDev.dec with run := true, alive := true }, sched := [.dec], srcIn := [.err] }
    ∃ t, step s = .next t ∧ t.hslot ≠ s.hslot ∧ t.hslot ≠ none := ⟨_, rfl, by decide, by decide⟩

theorem witness_MasterSendsQueueOneAction :
    formCmdData ⟨3, 7, 2, [0x68, 0x69]⟩ = true ∧ formBroadcast ⟨3, 0, 2, [0x68, 0x69]⟩ = true ∧ masterDev.cfgValid = true ∧
    masterDev.cfg.role = .master ∧ masterDev.mst.pend = none ∧ masterDev.mst.state = .idle ∧ masterDev.mst.stopReq = false ∧
    (sendingDev hi).mst.state ≠ .idle ∧ slaveDev.cfg.role ≠ .master := by decide

theorem witness_MasterControlOperations : formPlain (pay []) = true ∧ formPayload (pay [0, 0, 3, 0xE8]) = true ∧
    (pay [0, 0, 3, 0xE8]).payload = [0, 0, 3, 0xE8] ∧ formPayload (pay [3, 0xE8]) = true ∧
    (pay [3, 0xE8]).payload.length ≠ 4 ∧ masterDev.cfgValid = true ∧ masterDev.cfg.role = .master := by decide

theorem witness_MasterStepsAreExclusive : masterDev.cfgValid = true ∧ masterDev.cfg.role = .master ∧
    mGuard (sendingDev hi) .m4 = true ∧ (∀ k ∈ [MStep.m1, .m2, .m3, .m4, .m5, .m6, .m7, .m8, .m9], mGuard masterDev k = false) := by
  decide

theorem witness_MasterPicksUpAndTransmits : masterDev.cfgValid = true ∧ masterDev.cfg.role = .master ∧
    masterDev.cfg.mode = .dataFrame ∧
    (let s := { masterDev with mst := { masterDev.mst with stopReq := true } }; s.mst.state = .idle ∧ s.mst.stopReq = true) ∧
    (let s := { masterDev with mst := { masterDev.mst with pend := some hi } };
      s.mst.state = .idle ∧ s.mst.stopReq = false ∧ s.mst.pend = some hi) ∧
    ((sendingDev hi).mst.state = .sending ∧ (sendingDev hi).mst.txWait = false ∧ (sendingDev hi).mst.stopReq = false ∧
      (sendingDev hi).mst.last = some hi) ∧
    ({ sendingDev hi with mst := { (sendingDev hi).mst with stopReq := true } }).mst.stopReq = true := by decide

theorem witness_MasterPicksUpAndTransmits_build :
    frmBuild masterDev.cfg.nCh hi.addr hi.cmd hi.data = .ok ⟨0x07, 0x02, some [0x68, 0x69], 0x08⟩ ∧
    frmBuild masterDev.cfg.nCh hi.addr hi.cmd none = .error .missingData := ⟨rfl, rfl⟩

theorem witness_MasterEndsItsTransmission :
    let s := { sendingDev hi with mst := { (sendingDev hi).mst with txWait := true } }
    s.cfgValid = true ∧ s.cfg.role = .master ∧ s.mst.last = some hi ∧ s.mst.state = .sending ∧ s.mst.txWait = true ∧
    s.enc.phase = .idle ∧ s.enc.err ≠ .ioError ∧ hi.bc = false ∧ ({ hi with bc := true }).bc = true ∧
    ({ s with enc := { s.enc with err := .ioError } }).enc.err = .ioError := by decide

theorem witness_MasterActsOnReceivedFrames : (awaitingDev hi).cfgValid = true ∧ (awaitingDev hi).cfg.role = .master ∧
    (0x41 : Byte) ≠ STX ∧ (0x41 : Byte) ≠ ACK ∧ (0x41 : Byte) ≠ NAK ∧ (0x01 : Byte) ≠ 0x00 ∧ (0xFE : Byte) ≠ 0xFF := by decide

theorem witness_MasterRetriesBadReceptions :
    let s := heard (.bytes [0x04]) (awaitingDev hi)
    s.cfgValid = true ∧ s.cfg.role = .master ∧ s.mst.state = .awaitingResponse ∧ s.mst.tmo = false ∧
    s.hslot = some (.bytes [0x04]) ∧
    frmParse [0x04] s.cfg.nCh (some 0x00) = (none, .incorrectFrameLength, .otherRecipient) ∧
    (heard .sourceError (awaitingDev hi)).hslot = some .sourceError := by decide

/-- The clock exactly at the timeout and one millisecond before it; the decoder exited or not. -/
theorem witness_MasterTimesOutThroughTheJoin :
    let s := fun (now : BitVec 64) => { awaitingDev hi with timeoutMs := 1000, now := now }
    let joined := fun (alive : Bool) => { awaitingDev hi with
      mst := { (awaitingDev hi).mst with tmo := true }, dec := { (awaitingDev hi).dec with run := false, alive := alive } }
    ((s 1000).mst.tmo = false ∧ (s 1000).hslot = none ∧
      ((s 1000).timeoutMs ≠ 0 ∧ (s 1000).timeoutMs.toNat ≤ ((s 1000).now - (s 1000).mst.t0).toNat)) ∧
    ((s 999).mst.stopReq = false ∧
      ¬ ((s 999).timeoutMs ≠ 0 ∧ (s 999).timeoutMs.toNat ≤ ((s 999).now - (s 999).mst.t0).toNat)) ∧
    ((joined true).mst.tmo = true ∧ (joined true).dec.alive = true) ∧
    ((joined false).mst.tmo = true ∧ (joined false).dec.alive = false ∧ (joined false).mst.stopReq = false) := by decide

theorem witness_RetriesSendTheSameFrame :
    (∃ t, step { sendingDev hi with sched := [.host] } = .next t ∧ (sendingDev hi).mst.state ≠ .idle) ∧
    (∃ t, agentTurn .master (sendingDev hi) = .next t ∧ t.mst.txWait = true ∧ (sendingDev hi).mst.last = some hi) :=
  ⟨⟨_, rfl, by decide⟩, ⟨_, rfl, by decide, by decide⟩⟩

theorem witness_SlaveControlOperations : formPlain (pay []) = true ∧ slaveDev.cfgValid = true ∧ slaveDev.cfg.role = .slave ∧
    masterDev.cfg.role ≠ .slave := by decide

theorem witness_SlaveListensAndReplies : slaveDev.cfg.mode = .dataFrame ∧
    (slaveDev.dec.run = true → slaveDev.dec.alive = true) ∧
    (listeningDev.dec.run = true → listeningDev.dec.alive = true) ∧
    (let s := { slaveDev with slv := { slaveDev.slv with reply := some 0x06 } };
      s.slv.state = .idle ∧ s.slv.txWait = false ∧ s.slv.reply = some 0x06 ∧ (0x06 : Byte) ≠ STX) ∧
    (let s := { slaveDev with slv := { slaveDev.slv with run := true } };
      s.slv.state = .idle ∧ s.slv.txWait = false ∧ s.slv.reply = none ∧ s.slv.run = true) ∧
    (let s := { slaveDev with slv := { slaveDev.slv with reply := some 0x06, txWait := true } };
      s.slv.state = .idle ∧ s.slv.txWait = true ∧ s.enc.phase = .idle ∧
      ({ s with enc := { s.enc with phase := .transmitting } }).enc.phase = .transmitting) ∧
    (slaveDev.slv.state = .idle ∧ slaveDev.slv.txWait = false ∧ slaveDev.slv.reply = none ∧ slaveDev.slv.run = false) ∧
    (let s := { listeningDev with slv := { listeningDev.slv with run := false } };
      s.slv.state = .receiving ∧ s.hslot = none ∧ s.slv.run = false ∧ s.dec.run = true) ∧
    (let s := { listeningDev with dec := { listeningDev.dec with run := false, alive := false } };
      s.slv.state = .receiving ∧ s.hslot = none ∧ s.dec.alive = false) ∧
    (listeningDev.hslot = none ∧ listeningDev.dec.alive = true ∧ listeningDev.slv.run = true) := by decide

theorem witness_SlaveActsOnReceivedFrames : listeningDev.cfgValid = true ∧ listeningDev.cfg.role = .slave ∧
    (0x41 : Byte) ≠ STX ∧ (0x41 : Byte) ≠ ACK ∧ (0x41 : Byte) ≠ NAK ∧ (0x07 : Byte) = listeningDev.cfg.devAddr ∧
    ((0x00 : Byte) ≠ 0xFF ∧ (0x00 : Byte) ≠ listeningDev.cfg.devAddr) := by decide

theorem witness_SlaveAnswersOnlyItsAddress :
    let s := heard (.bytes [0x01, 0x07, 0x06, 0x06, 0x04]) listeningDev
    s.cfgValid = true ∧ s.cfg.role = .slave ∧ s.slv.state = .receiving ∧ s.slv.reply = none ∧
    s.hslot = some (.bytes [0x01, 0x07, 0x06, 0x06, 0x04]) ∧
    frmParse [0x01, 0x07, 0x06, 0x06, 0x04] s.cfg.nCh (some s.cfg.devAddr) = (none, .checksumIncorrect, .ok) ∧
    (∃ t, agentTurn .slave s = .next t ∧ t.slv.reply ≠ none) ∧
    (heard .sourceError listeningDev).hslot = some .sourceError :=
  ⟨by decide, by decide, by decide, by decide, by decide, by decide, ⟨_, rfl, by decide⟩, by decide⟩

theorem witness_MalformedPacketsAreRefused :
    hostInstr 0x22 ⟨1, 0, 0, []⟩ = some (.encRun ⟨1, 0, 0, []⟩) ∧ (Instr.encRun ⟨1, 0, 0, []⟩).wellFormed = false ∧
    blank.params.hexMax < (List.replicate 256 (0x30 : Byte)).length := by decide +kernel

theorem witness_ReservedOpcodesAreRefused :
    let s := { blank with sched := [.host], hostIn := [0x04, 0, 0, 0, 1, 0xAA, 0x22] }
    s.sched = .host :: [] ∧ s.hostWait = false ∧ s.hostIn = 0x04 :: 0 :: 0 :: 0 :: 1 :: [0xAA, 0x22] ∧
    (1 : Byte).toNat ≤ ([0xAA, 0x22] : List Byte).length := by decide

theorem witness_UnconfiguredOperationsAreRefused :
    hostInstr 0x22 (pay []) = some (.encRun (pay [])) ∧ (0x22 : Byte) ∉ ([0x01, 0x02, 0x03] : List Byte) ∧
    (Instr.encRun (pay [])).wellFormed = true ∧ blank.cfgValid = false ∧
    (∀ p, Instr.encRun (pay []) = .encLdhex p → p.payload.length ≤ blank.params.hexMax) :=
  ⟨by decide, by decide, by decide, by decide, fun _ h => absurd h (by simp)⟩

theorem witness_RolesAcceptTheirOperations :
    hostInstr 0x52 (pay []) = some (.mIdle (pay [])) ∧ (Instr.mIdle (pay [])).wellFormed = true ∧
    (slaveDev.cfgValid = true ∧ slaveDev.cfg.role ≠ .master) ∧ (masterDev.cfg.role = .master ∧ masterDev.resCode ≠ .wrongRole) ∧
    (∀ p, Instr.mIdle (pay []) = .encLdhex p → p.payload.length ≤ masterDev.params.hexMax) ∧
    (∃ t, exec (.mIdle (pay [])) masterDev = .next t) :=
  ⟨by decide, by decide, by decide, by decide, fun _ h => absurd h (by simp), ⟨_, rfl⟩⟩

theorem witness_StepRunsTheHostPacket :
    let s := { blank with sched := [.host], hostIn := [0x03, 0, 0, 0, 0, 0x22] }
    s.sched = .host :: [] ∧ s.hostWait = false ∧ decodePacket s.hostIn = .ok (.rdst (pay []), [0x22]) ∧
    decodePacket [0x22] = .error .incomplete := ⟨by decide, by decide, rfl, rfl⟩

theorem witness_StepRunsTheReceivedFrame :
    (let s := { heard (.bytes [0x01, 0x00, 0x06, 0x05, 0x04]) (awaitingDev hi) with sched := [.master] };
      s.cfgValid = true ∧ s.hslot = some (.bytes [0x01, 0x00, 0x06, 0x05, 0x04]) ∧ s.sched = .master :: [] ∧
      s.cfg.role = .master ∧ s.mst.state = .awaitingResponse ∧ s.mst.tmo = false) ∧
    (let s := { heard (.bytes [0x01, 0x07, 0x41, 0x05, 0x04]) listeningDev with sched := [.slave] };
      s.sched = .slave :: [] ∧ s.cfg.role = .slave ∧ s.slv.state = .receiving) ∧
    decodeFrame 16 (some 0x00) [0x01, 0x00, 0x06, 0x05, 0x04] = .ok (.ack 0x00) ∧
    decodeFrame 16 (some 0x07) [0x01, 0x07, 0x41, 0x05, 0x04] = .ok (.cmdOther 0x07 0x41) :=
  ⟨by decide, by decide, rfl, rfl⟩

theorem witness_DecodeInvertsEncode : opcodeOf (.fecEnc ⟨0, 0x0F, 0, []⟩) = some 0x18 ∧
    (Instr.fecEnc ⟨0, 0x0F, 0, []⟩).wellFormed = true ∧ 4 ≤ 4 ∧ checkAddress 0xFF (some 0x07) ≠ .otherRecipient ∧
    (Instr.stx 0xFF (List.replicate 127 0x55)).wellFormed = true ∧ (Instr.cmdOther 0x07 0x41).wellFormed = true := by
  decide +kernel

/-- A master that awaits a response, and the host queries it, satisfies the invariant before its step. -/
theorem witness_StepKeepsTheInvariant :
    let s := { awaitingDev hi with sched := [.host], hostIn := [0x52, 0, 0, 0, 0] }
    Inv s ∧ ∃ t, step s = .next t := by
  refine ⟨⟨⟨?_, ?_, fun _ => rfl, fun h => absurd h (by decide), fun _ h => absurd rfl h, fun _ _ => rfl⟩,
    ⟨?_, ?_, ?_, ?_⟩, ⟨?_, ?_, ?_, ?_, ?_, ?_, ?_, ?_, ?_, ?_, ?_⟩, ⟨?_, ?_, ?_, ?_, ?_, ?_, ?_, ?_, ?_, ?_, ?_⟩⟩, _, rfl⟩ <;>
    decide +kernel

theorem witness_TraceAndClockOnlyGrow : ∃ t, step { blank with sched := [.clk], clkIn := [5] } = .next t := ⟨_, rfl⟩

theorem witness_ConfigurationIsImmutable : plainDev.cfgValid = true ∧
    (∃ t, step { plainDev with sched := [.host], hostIn := [0x03, 0, 0, 0, 0] } = .next t) ∧
    (∃ t, step { plainDev with sched := [.resetIn] } = .next t) := ⟨by decide, ⟨_, rfl⟩, ⟨_, rfl⟩⟩

theorem witness_PaddingStopsAtTheFirstFit : 0 < 1 ∧ 4 ≤ 4 := by decide

end Sys2Proof.Tests
end

section
/-! PROOF. What a step leaves alone: every step but a reset and a successful CFG only extends the state it found. -/

namespace Sys2Proof.Machine

/-- `t` extends `s`: the parameters and the configuration are those of `s` (R9, R24), the event trace and what crossed the
sink are only appended to (R42, R68), and NOW has not decreased (R43). -/
structure Extends (s t : State) : Prop where
  params : t.params = s.params
  config : t.cfgValid = s.cfgValid ∧ t.cfg = s.cfg ∧ t.rom = s.rom
  evt : s.evt <+: t.evt
  snkOut : s.snkOut <+: t.snkOut
  now : s.now.toNat ≤ t.now.toNat

namespace Extends

/-- A change of the other registers and of the ports' inputs alone. -/
theorem of_eq {s t : State} (params : t.params = s.params := by rfl) (valid : t.cfgValid = s.cfgValid := by rfl)
    (cfg : t.cfg = s.cfg := by rfl) (rom : t.rom = s.rom := by rfl) (evt : t.evt = s.evt := by rfl)
    (snkOut : t.snkOut = s.snkOut := by rfl) (now : t.now = s.now := by rfl) : Extends s t :=
  ⟨params, ⟨valid, cfg, rom⟩, evt ▸ List.prefix_rfl, snkOut ▸ List.prefix_rfl, now ▸ le_rfl⟩

theorem refl (s : State) : Extends s s := of_eq

theorem trans {s t u : State} (h : Extends s t) (h' : Extends t u) : Extends s u where
  params := h'.params.trans h.params
  config := ⟨h'.config.1.trans h.config.1, h'.config.2.1.trans h.config.2.1, h'.config.2.2.trans h.config.2.2⟩
  evt := h.evt.trans h'.evt
  snkOut := h.snkOut.trans h'.snkOut
  now := h.now.trans h'.now

end Extends

theorem extends_emit (e : Event) (s : State) : Extends s (emit e s) :=
  { Extends.refl s with evt := List.prefix_append _ _ }

/-- Then an event. -/
theorem Extends.emit {s t : State} {e : Event} (h : Extends s t) : Extends s (emit e t) := h.trans (extends_emit e t)

theorem extends_hostOp {form : Bool} {checks : List (Option ErrCode)} {body : State → State} {s : State}
    (h : form = true → firstError checks = .ok → Extends s (body s)) : Extends s (hostOp form checks body s) :=
  hostOp_keeps (fun _ => .of_eq) h

theorem extends_takeTurn (s : State) : Extends s (takeTurn s).2 := by
  obtain ⟨turns, n, h⟩ := takeTurn_rest s
  rw [h]; exact .of_eq

/-! ### The encoder, the decoder, the clock -/

theorem extends_encStart (s : State) : Extends s (encStart s).2 := by
  cases h : rawBits s.cfg s.enc with
  | ok bits => rw [encStart_ok h]; exact .of_eq
  | error e => rw [encStart_error h]; exact .emit .of_eq

/-- The start of a run on a Frame that has just been built. -/
theorem extends_encStart_frame (f : Frame) (s : State) :
    Extends s (encStart { s with enc := { s.enc with frm := some f } }).2 :=
  .trans .of_eq (extends_encStart { s with enc := { s.enc with frm := some f } })

theorem extends_releaseHost (e : ErrCode) (s : State) : Extends s (releaseHost e s) := by
  unfold releaseHost; split <;> exact .of_eq

theorem extends_encPushed (ok : Bool) (s : State) : Extends s (encPushed ok s) := by
  unfold encPushed
  split
  · exact .trans (.emit (.emit .of_eq)) (extends_releaseHost _ _)
  · split
    · exact .trans .of_eq (extends_releaseHost _ _)
    · exact .of_eq

theorem extends_snkPush (buf : List Sample) (s : State) : Extends s (snkPush buf s).2 := by
  obtain ⟨more, n, h⟩ := snkPush_cases buf s
  rw [h]
  exact { Extends.refl s with snkOut := List.prefix_append _ _ }

theorem extends_encTurn (s : State) : Extends s (encTurn s) := by
  unfold encTurn
  split
  · exact (extends_snkPush _ s).trans (extends_encPushed _ _)
  · exact .refl s

theorem extends_decodeCycle (s : State) : Extends s (decodeCycle s) := by
  unfold decodeCycle
  split
  · split
    · exact .of_eq
    · exact .emit .of_eq
  · exact .refl s

theorem extends_updateOld (s : State) (det : List (Option Rat)) : Extends s (updateOld s det) := by
  unfold updateOld; split <;> exact .of_eq

theorem extends_acceptSlot (slot : Option (List Bool)) (s : State) : Extends s (acceptSlot slot s) := by
  cases slot with
  | none => exact .refl s
  | some bits => exact .trans .of_eq (extends_decodeCycle _)

theorem extends_trackFrame (det : List (Option Rat)) (s : State) : Extends s (trackFrame det s) := by
  unfold trackFrame
  split
  · exact (extends_updateOld s det).trans (extends_acceptSlot _ _)
  · exact extends_updateOld s det

theorem extends_bodyEnd (s : State) : Extends s (bodyEnd s) := by
  simp only [bodyEnd]; split <;> exact .of_eq

theorem extends_srcPull (s : State) : Extends s (srcPull s).2 := by
  obtain ⟨more, n, h, -⟩ := srcPull_cases s
  rw [h]; exact .of_eq

theorem extends_decPulled (r : SrcReply) (s : State) : Extends s (decPulled r s) := by
  cases r with
  | ok samples => exact .of_eq
  | err => exact .emit .of_eq

theorem extends_decTurn (s : State) : Extends s (decTurn s) := by
  unfold decTurn
  split
  · split
    · unfold decTop
      split
      · exact .of_eq
      · exact (extends_srcPull s).trans (extends_decPulled _ _)
    · exact (extends_trackFrame _ s).trans (extends_bodyEnd _)
  · exact .refl s

theorem extends_clkTurn (s : State) : Extends s (clkTurn s) := by
  unfold clkTurn
  split <;> exact { Extends.refl s with now := advance_ge _ _ }

/-! ### The transports -/

theorem extends_mRetry (s : State) : Extends s (mRetry s) := .emit .of_eq

theorem extends_mNoFrame (pr : ParserResult) (ac : AddrCheck) (s : State) : Extends s (mNoFrame pr ac s) :=
  (extends_emit _ _).trans (extends_mRetry _)

theorem extends_m4 (s : State) : Extends s (m4 s) := by
  unfold m4
  split
  · unfold mTransmit
    split
    · exact .trans (.emit .of_eq) .of_eq
    · exact .trans (extends_encStart_frame _ s) .of_eq
  · exact .refl s

theorem extends_mSent (act : Action) (s : State) : Extends s (mSent act s) := by
  simp only [mSent]
  split <;> exact (extends_emit _ s).trans .of_eq

theorem extends_m5 (s : State) : Extends s (m5 s) := by
  simp only [m5]
  split
  · exact .trans .of_eq (extends_mRetry _)
  · split
    · exact .trans .of_eq (extends_mSent _ _)
    · exact .of_eq

theorem extends_m9 (s : State) : Extends s (m9 s) := by
  simp only [m9]
  split
  · exact .of_eq
  · exact .trans (.emit .of_eq) (extends_mRetry _)

theorem extends_s1 (s : State) : Extends s (s1 s) := by
  unfold s1
  split
  · exact .trans (extends_encStart_frame _ s) .of_eq
  · exact .refl s

theorem extends_s3 (s : State) : Extends s (s3 s) := by
  simp only [s3]
  split
  · exact (extends_emit _ s).trans .of_eq
  · exact .of_eq

theorem extends_sNoFrame (pr : ParserResult) (ac : AddrCheck) (s : State) : Extends s (sNoFrame pr ac s) :=
  (extends_emit _ s).trans .of_eq

theorem extends_mReceive (addr : Byte) {accept : State → State} (ha : ∀ s, Extends s (accept s)) (s : State) :
    Extends s (mReceive addr accept s) := by
  simp only [mReceive]
  split
  · exact (extends_emit _ s).trans (ha _)
  · exact extends_mNoFrame _ _ s

theorem extends_sReceive (addr : Byte) (callback : Event) (s : State) : Extends s (sReceive addr callback s) := by
  simp only [sReceive]
  split
  · exact ((extends_emit _ s).trans (extends_emit _ _)).trans .of_eq
  · exact extends_sNoFrame _ _ s

theorem extends_receive (addr : Byte) {accept : State → State} (ha : ∀ s, Extends s (accept s)) (callback : Event)
    (s : State) : Extends s (receive addr accept callback s) := by
  unfold receive
  split
  · exact extends_mReceive addr ha s
  · split
    · exact extends_sReceive addr callback s
    · exact .refl s

/-! ### The instructions -/

theorem extends_answer (r : Except ErrCode (List Byte)) (s : State) : Extends s (answer r s) := by
  cases r <;> exact .of_eq

theorem extends_loadFrame (r : Except ErrCode Frame) (s : State) : Extends s (loadFrame r s) := by
  cases r <;> exact .of_eq

theorem extends_hostRun (s : State) : Extends s (hostRun s) := by
  simp only [hostRun]
  split <;> exact (extends_encStart s).trans .of_eq

/-- What an instruction or a step can do: extend the state, reset it (R313, R350), or configure it where it was not
configured (R24, R310), the latter two after it has taken its inputs. -/
inductive Change (s : State) : State → Prop where
  | extended {t : State} (h : Extends s t) : Change s t
  | reset {u : State} (h : Extends s u) : Change s (resetRegs u)
  | configured {u : State} (h : Extends s u) (p : List Byte) (hc : u.cfgValid = false) :
    Change s (respond .ok [] (configure p u))

theorem Change.unchanged {s : State} : Change s s := .extended (.refl s)

theorem Change.after {s u t : State} (hu : Extends s u) (h : Change u t) : Change s t := by
  cases h with
  | extended h => exact .extended (hu.trans h)
  | reset h => exact .reset (hu.trans h)
  | configured h p hc => exact .configured (hu.trans h) p hc

theorem exec_change {i : Instr} {s t : State} (h : exec i s = .next t) : Change s t := by
  cases i <;> cases h
  case cfg o =>
    refine hostOp_keeps (fun _ => .extended .of_eq) fun _ hc => .configured (.refl s) o.payload ?_
    by_contra hv
    simp [needNoCfg_true (by simpa using hv)] at hc
  case rst o => exact hostOp_keeps (fun _ => .extended .of_eq) fun _ _ => .reset (.refl s)
  case hex2bin | bstr2arr | bin2hex | fecEnc | fecDec | frmBuild | frmParse =>
    exact .extended (extends_hostOp fun _ _ => extends_answer _ s)
  case encLdfrm => exact .extended (extends_hostOp fun _ _ => extends_loadFrame _ s)
  case encRun => exact .extended (extends_hostOp fun _ _ => extends_hostRun s)
  case rdst | encLdhex | decStart | decStop | decRdhex | decRdfrm | mSend | mSendbc | mIdle | mStop | mSetto | sStart
      | sStop =>
    exact .extended (extends_hostOp fun _ _ => .of_eq)
  case stx | cmdOther => exact .extended (extends_receive _ extends_mRetry _ s)
  case ack =>
    exact .extended (extends_receive _ (fun _ => ((extends_emit _ _).trans (extends_emit _ _)).trans .of_eq) _ s)
  case nak => exact .extended (extends_receive _ (fun _ => (extends_emit _ _).trans (extends_mRetry _)) _ s)

/-! ### The step -/

theorem hostTurn_change {s t : State} (h : hostTurn s = .next t) : Change s t := by
  unfold hostTurn at h
  split at h
  · cases h; exact .unchanged
  · split at h
    · exact .after .of_eq (exec_change h)
    · cases h; exact .extended .of_eq
    · cases h; exact .unchanged

/-- The result is taken from the slot before a received Frame is run. -/
theorem extends_slotTaken (s : State) : Extends s { s with hslot := none } := .of_eq

theorem m6_change {s t : State} (h : m6 s = .next t) : Change s t := by
  unfold m6 at h
  split at h
  · split at h
    · exact .after (extends_slotTaken s) (exec_change h)
    · cases h; exact .extended ((extends_slotTaken s).trans (extends_mNoFrame _ _ _))
  · cases h; exact .extended ((extends_slotTaken s).trans (extends_mRetry _))
  · cases h; exact .unchanged

theorem s4_change {s t : State} (h : s4 s = .next t) : Change s t := by
  unfold s4 at h
  split at h
  · split at h
    · exact .after (extends_slotTaken s) (exec_change h)
    · cases h; exact .extended ((extends_slotTaken s).trans (extends_sNoFrame _ _ _))
  · cases h; exact .extended .of_eq
  · cases h; exact .unchanged

theorem mRun_change {k : MStep} {s t : State} (h : mRun k s = .next t) : Change s t := by
  cases k
  case m6 => exact m6_change h
  all_goals cases h
  case m1 | m2 | m3 | m7 | m8 => exact .extended .of_eq
  case m4 => exact .extended (extends_m4 s)
  case m5 => exact .extended (extends_m5 s)
  case m9 => exact .extended (extends_m9 s)

theorem sRun_change {k : SStep} {s t : State} (h : sRun k s = .next t) : Change s t := by
  cases k
  case s4 => exact s4_change h
  all_goals cases h
  case s1 => exact .extended (extends_s1 s)
  case s3 => exact .extended (extends_s3 s)
  case s2 | s5 | s6 => exact .extended .of_eq

theorem masterTurn_change {s t : State} (h : masterTurn s = .next t) : Change s t := by
  unfold masterTurn at h
  split at h
  · split at h
    · exact mRun_change h
    · cases h; exact .unchanged
  · cases h; exact .unchanged

theorem slaveTurn_change {s t : State} (h : slaveTurn s = .next t) : Change s t := by
  unfold slaveTurn at h
  split at h
  · split at h
    · exact sRun_change h
    · cases h; exact .unchanged
  · cases h; exact .unchanged

theorem agentTurn_change {a : Agent} {s t : State} (h : agentTurn a s = .next t) : Change s t := by
  cases a
  case host => exact hostTurn_change h
  case master => exact masterTurn_change h
  case slave => exact slaveTurn_change h
  all_goals cases h
  case enc => exact .extended (extends_encTurn s)
  case dec => exact .extended (extends_decTurn s)
  case clk => exact .extended (extends_clkTurn s)
  case resetIn => exact .reset (.refl s)

theorem step_change {s t : State} (h : step s = .next t) : Change s t :=
  .after (extends_takeTurn s) (agentTurn_change h)

/-- Settles O59: an extension only appends, and so do the reset and CFG, which leave the trace and the clock as they are. -/
theorem traceAndClockOnlyGrow : Obligations.TraceAndClockOnlyGrow := by
  intro s t h
  have grown {u : State} (hu : Extends s u) :
      (∃ more, u.evt = s.evt ++ more) ∧ (∃ more, u.snkOut = s.snkOut ++ more) ∧ s.now.toNat ≤ u.now.toNat :=
    have ⟨evs, hevs⟩ := hu.evt
    have ⟨outs, houts⟩ := hu.snkOut
    ⟨⟨evs, hevs.symm⟩, ⟨outs, houts.symm⟩, hu.now⟩
  cases step_change h with
  | extended ht => exact grown ht
  | reset hu => exact (grown hu :)
  | configured hu => exact (grown hu :)

/-! ### Reset (R50, R350) -/

/-- STATUS is zero after reset (R350): the fields that depend on ROLE read as 0 while the block is not configured, and the
others show registers at their reset values. -/
theorem status_resetRegs (s : State) : status (resetRegs s) = 0 := by
  have hrole : statusRole (resetRegs s) = 0 := by simp [statusRole]
  have hmst : statusMst (resetRegs s) = 0 := by simp [statusMst]
  have hsst : statusSst (resetRegs s) = false := by simp [statusSst]
  rw [status, hrole, hmst, hsst]
  show (0 : BitVec 8) ++ errCode .ok ++ statusBit false ++ statusBit false ++ statusBit false ++ statusBit false
    ++ (0 : BitVec 2) ++ (0 : BitVec 2) ++ statusBit false ++ statusBit false ++ statusBit false ++ statusBit false
    ++ statusBit false ++ statusBit false ++ statusBit false ++ statusBit false = 0
  decide

theorem atReset_resetRegs (s : State) : AtReset (resetRegs s) where
  cfgValid := rfl
  enc := rfl
  decControl := ⟨rfl, rfl, rfl, rfl⟩
  decOld := fun _ => rfl
  decBuffers := ⟨rfl, rfl, rfl, rfl⟩
  decFlags := ⟨rfl, rfl, rfl⟩
  hslot := rfl
  mst := rfl
  slv := rfl
  timeoutMs := rfl
  result := ⟨rfl, rfl⟩
  statusZero := status_resetRegs s

/-- Settles O60: an extension keeps parameters and configuration, a reset leads to the reset values, and CFG succeeds only
where nothing was configured. -/
theorem configurationIsImmutable : Obligations.ConfigurationIsImmutable := by
  intro s t h
  cases step_change h with
  | extended ht =>
    obtain ⟨hvalid, hcfg, hrom⟩ := ht.config
    exact ⟨ht.params, fun hc => .inl ⟨hvalid.trans hc, hcfg, hrom⟩⟩
  | @reset u hu => exact ⟨hu.params, fun _ => .inr (atReset_resetRegs u)⟩
  | configured hu p hc =>
    exact ⟨hu.params, fun hc' => absurd ((hu.config.1.trans hc').symm.trans hc) (by decide)⟩

end Sys2Proof.Machine
end

section
/-! PROOF. The configuration: what a legal one satisfies (R311), and what CFG makes of a record (R310, R312, R315). -/

namespace Sys2Proof.Machine

/-- The checks of R311 on the registers, as propositions. -/
structure LegalRegs (chMax : Nat) (c : CfgRegs) : Prop where
  sampleRate : 0 < c.sampleRate
  channels : 1 ≤ c.nCh ∧ c.nCh ≤ chMax
  band : 0 < c.firstFreq ∧ 0 < c.freqStep
  lengths : 1 ≤ lenDec c ∧ lenEnc c < 2 ^ 31
  nfft : c.nfftValid = true → lenDec c ≤ c.nfft
  bins : c.nfftValid = true → 2 ≤ binLo c 0 ∧ 2 * binHi c (c.nCh - 1) ≤ c.nfft
  transport : c.role ≠ .standalone → c.mode = .dataFrame ∧ c.nfftValid = true ∧ c.thrValid = true

theorem legalRegs_of_ok {chMax : Nat} {c : CfgRegs} (h : cfgRegsOk chMax c = true) : LegalRegs chMax c := by
  simp only [cfgRegsOk, Bool.and_eq_true, Bool.or_eq_true, decide_eq_true_eq, Bool.not_eq_true', beq_iff_eq] at h
  obtain ⟨⟨⟨⟨⟨⟨⟨⟨hrate, -, hch⟩, hband⟩, hlen⟩, -⟩, hfit⟩, hbins⟩, -⟩, hrole⟩ := h
  have given {p : Prop} (hp : c.nfftValid = false ∨ p) (hv : c.nfftValid = true) : p :=
    hp.resolve_left (by simp [hv])
  exact ⟨hrate, hch, hband, hlen, given hfit, given hbins, fun hr =>
    have ⟨⟨hmode, hnfft⟩, hthr⟩ := hrole.resolve_left hr
    ⟨hmode, hnfft, hthr⟩⟩

section
variable {s : State} (h : ConfigInv s) (hc : s.cfgValid = true)
include h hc

theorem ConfigInv.legalRegs : LegalRegs s.params.chMax s.cfg := legalRegs_of_ok (h.legal hc)

theorem ConfigInv.nCh_pos : 0 < s.cfg.nCh := (h.legalRegs hc).channels.1

/-- The configuration part holds of every state with the same configuration in which only the transport that the device has
may have moved. -/
theorem ConfigInv.of_valid {t : State}
    (config : t.params = s.params ∧ t.cfgValid = s.cfgValid ∧ t.cfg = s.cfg ∧ t.rom = s.rom := by
      exact ⟨rfl, rfl, rfl, rfl⟩)
    (mst : s.cfg.role ≠ .master → t.mst = s.mst ∧ t.timeoutMs = s.timeoutMs := by exact fun _ => ⟨rfl, rfl⟩)
    (slv : s.cfg.role ≠ .slave → t.slv = s.slv := by exact fun _ => rfl) : ConfigInv t := by
  obtain ⟨hp, hv, hcfg, hrom⟩ := config
  refine ⟨?_, ?_, ?_, fun hf => absurd (hv.trans hc) (by simp [hf]), fun _ hr => ?_, fun _ hr => ?_⟩
  · rw [hp, hv, hcfg]; exact h.legal
  · rw [hv, hcfg]; exact h.ranges
  · rw [hp, hv, hcfg, hrom]; exact h.fresh
  · rw [hcfg] at hr
    rw [(mst hr).1, (mst hr).2, hp]; exact h.noMaster hc hr
  · rw [hcfg] at hr
    rw [slv hr]; exact h.noSlave hc hr

end

/-! ### The channel windows (R25, R27) -/

theorem lowFreq_lt_highFreq {c : CfgRegs} (h : 0 < c.freqStep) (i : Nat) : lowFreq c i < highFreq c i := by
  unfold lowFreq highFreq; linarith

theorem lowFreq_succ (c : CfgRegs) (i : Nat) : lowFreq c (i + 1) = highFreq c i + c.freqStep := by
  unfold lowFreq highFreq; push_cast; ring

theorem lowFreq_mono {c : CfgRegs} (h : 0 < c.freqStep) {i j : Nat} (hij : i ≤ j) : lowFreq c i ≤ lowFreq c j := by
  unfold lowFreq; gcongr

theorem highFreq_mono {c : CfgRegs} (h : 0 < c.freqStep) {i j : Nat} (hij : i ≤ j) : highFreq c i ≤ highFreq c j := by
  unfold highFreq; gcongr

theorem LegalRegs.deltaF_pos {chMax : Nat} {c : CfgRegs} (h : LegalRegs chMax c) (hv : c.nfftValid = true) :
    0 < deltaF c := by
  have hn : 0 < c.nfft := h.lengths.1.trans (h.nfft hv)
  exact div_pos h.sampleRate (by exact_mod_cast hn)

theorem binLo_eq (c : CfgRegs) (i : Nat) : binLo c i = ⌈(lowFreq c i - deltaF c) / deltaF c⌉₊ := by
  have hceil : ∀ x : Rat, x.ceil = ⌈x⌉ := fun x => eq_of_forall_ge_iff fun n => Rat.ceil_le_iff.trans Int.ceil_le.symm
  rw [binLo, hceil, Int.ceil_toNat]

theorem binHi_eq (c : CfgRegs) (i : Nat) : binHi c i = ⌊(highFreq c i + deltaF c) / deltaF c⌋₊ := rfl

section
variable {c : CfgRegs} (hs : 0 < c.freqStep) (hd : 0 < deltaF c)
include hs hd

theorem binLo_mono {i j : Nat} (hij : i ≤ j) : binLo c i ≤ binLo c j := by
  have := lowFreq_mono hs hij
  rw [binLo_eq, binLo_eq]; gcongr

theorem binHi_mono {i j : Nat} (hij : i ≤ j) : binHi c i ≤ binHi c j := by
  have := highFreq_mono hs hij
  rw [binHi_eq, binHi_eq]; gcongr

/-- K_LO lies less than one bin above LOW − DELTA_F, and K_HI is at least as far above it as HIGH + DELTA_F allows. -/
theorem binLo_lt_binHi {i : Nat} (hlo : 0 < binLo c i) : binLo c i < binHi c i := by
  have hlow : (binLo c i : Rat) < lowFreq c i / deltaF c := by
    rw [binLo_eq, Nat.ceil_pos] at hlo
    have := Nat.ceil_lt_add_one hlo.le
    rwa [← binLo_eq, sub_div, div_self hd.ne', sub_add_cancel] at this
  have hhigh : lowFreq c i / deltaF c < highFreq c i / deltaF c := by
    have := lowFreq_lt_highFreq hs i
    gcongr
  rw [binHi_eq, ← Nat.succ_le_iff]
  apply Nat.le_floor
  rw [add_div, div_self hd.ne']
  push_cast
  linarith

end

/-- Settles O5: the ROMs hold the channel table of the configuration, the first and the last window are checked by R311, and
the others lie between them. -/
theorem channelWindowsLieInsideTheBand : Obligations.ChannelWindowsLieInsideTheBand := by
  intro s h hc
  have hl := h.legalRegs hc
  have hs := hl.band.2
  have hrom := h.fresh hc
  have low {i : Nat} (hi : i < s.cfg.nCh) : s.rom.low[i]? = some (lowFreq s.cfg i) := by
    rw [← hrom]; simp [deriveRom, hi]
  have high {i : Nat} (hi : i < s.cfg.nCh) : s.rom.high[i]? = some (highFreq s.cfg i) := by
    rw [← hrom]; simp [deriveRom, hi]
  refine ⟨fun i hi => ⟨_, _, low hi, high hi, lowFreq_lt_highFreq hs i, fun hnext => ⟨_, low hnext, ?_, ?_⟩⟩,
    fun hv => ⟨?_, fun i hi => ⟨binLo s.cfg i, binHi s.cfg i, ?_, ?_, ?_⟩⟩⟩
  · rw [lowFreq_succ]; linarith
  · rw [lowFreq_succ]; ring
  · rw [← hrom]; exact hl.nfft hv
  · rw [← hrom]; simp [deriveRom, hv, hi]
  · rw [← hrom]; simp [deriveRom, hv, hi]
  · have hd := hl.deltaF_pos hv
    obtain ⟨hfirst, hlast⟩ := hl.bins hv
    have hlo : 2 ≤ binLo s.cfg i := hfirst.trans (binLo_mono hs hd (Nat.zero_le i))
    have hhi : binHi s.cfg i ≤ binHi s.cfg (s.cfg.nCh - 1) := binHi_mono hs hd (Nat.le_sub_one_of_lt hi)
    exact ⟨hlo, binLo_lt_binHi hs hd (by omega), by omega⟩

/-! ### What CFG writes (R310, R312) -/

theorem recFrac_nonneg (p : List Byte) (off : Nat) : 0 ≤ recFrac p off :=
  div_nonneg (Nat.cast_nonneg _) (Nat.cast_nonneg _)

/-- Deriving again derives the same (R78). -/
theorem deriveRom_idem (p : Params) (c : CfgRegs) (old : Rom) :
    deriveRom p c (deriveRom p c old) = deriveRom p c old := by
  cases h : c.nfftValid <;> simp [deriveRom, h]

/-- The registers of a record that passes the checks lie in the ranges of R22, R23: what the record gives by check 4 of R311,
the defaults of R315 because FREQ_STEP is positive. -/
theorem recRegs_ranges {p : List Byte} {old : CfgRegs} (hf : recFractionsOk p = true)
    (hs : 0 < (recRegs p old).freqStep) :
    0 < (recRegs p old).tOnePulse ∧ 0 ≤ (recRegs p old).tBreak ∧ 0 ≤ (recRegs p old).fadeLength ∧
      (recRegs p old).fadeLength ≤ 1 / 2 ∧ ((recRegs p old).thrValid = true → 0 ≤ (recRegs p old).threshold) := by
  simp only [recFractionsOk, Bool.and_eq_true, Bool.or_eq_true, Bool.not_eq_true', decide_eq_true_eq] at hf
  obtain ⟨⟨⟨hpulse, hbreak⟩, hfade⟩, -⟩ := hf
  have hone : 0 < (recRegs p old).tOnePulse := by
    cases hg : recGiven p 0 with
    | false => simpa [recRegs, hg] using hs
    | true => simpa [recRegs, hg] using (hpulse.resolve_left (by simp [hg])).2
  refine ⟨hone, ?_, ?_, ?_, fun hthr => ?_⟩
  · cases hg : recGiven p 1 with
    | false =>
      have : (recRegs p old).tBreak = 2 * (recRegs p old).tOnePulse := by simp [recRegs, hg]
      rw [this]; positivity
    | true => simpa [recRegs, hg] using (hbreak.resolve_left (by simp [hg])).2
  · cases hg : recGiven p 2 with
    | false => simp [recRegs, hg]
    | true => simpa [recRegs, hg] using (hfade.resolve_left (by simp [hg])).2.1
  · cases hg : recGiven p 2 with
    | false => simp [recRegs, hg]; norm_num
    | true => simpa [recRegs, hg] using (hfade.resolve_left (by simp [hg])).2.2
  · have hg : recGiven p 6 = true := hthr
    simpa [recRegs, hg] using recFrac_nonneg p 46

end Sys2Proof.Machine
end

section
/-! PROOF. The parts of the invariant under the operations that the agents share: reset, CFG, the start and the end of a run
of the encoder, the start, the frames and the exits of the decoder. -/

namespace Sys2Proof.Machine

/-! ### Which transport runs -/

theorem isMaster_iff {s : State} : isMaster s = true ↔ s.cfgValid = true ∧ s.cfg.role = .master := by simp [isMaster]

theorem not_isMaster {s : State} (hr : s.cfg.role ≠ .master) : ¬ isMaster s = true := fun hm => hr (isMaster_iff.1 hm).2

theorem isSlave_iff {s : State} : isSlave s = true ↔ s.cfgValid = true ∧ s.cfg.role = .slave := by simp [isSlave]

theorem not_isSlave {s : State} (hr : s.cfg.role ≠ .slave) : ¬ isSlave s = true := fun hs => hr (isSlave_iff.1 hs).2

/-! ### Reset and CFG -/

/-- A state in which no agent is at work and every buffer is empty, as reset leaves it, satisfies the rest of the invariant
with its configuration part. -/
theorem ConfigInv.inv_of_quiet {t : State} (config : ConfigInv t) (enc : t.enc = EncRegs.reset)
    (dec : ∃ frame, t.dec = DecRegs.reset frame) (hslot : t.hslot = none) (mst : t.mst = MasterRegs.reset)
    (slv : t.slv = SlaveRegs.reset) (wait : t.hostWait = false) : Inv t := by
  have hcycle : t.cfgValid = true → 0 < Nat.lcm t.cfg.nCh 16 := fun hc => Nat.lcm_pos (config.nCh_pos hc) (by decide)
  obtain ⟨frame, dec⟩ := dec
  cases t
  subst enc dec hslot mst slv wait
  exact ⟨config, ⟨nofun, nofun, nofun, nofun⟩,
    ⟨nofun, nofun, fun _ => Nat.zero_mod _, hcycle, Nat.zero_le _, Nat.zero_le _, Nat.zero_le _, nofun, nofun,
      fun _ => rfl, nofun⟩,
    ⟨fun h => absurd rfl h, nofun, nofun, fun _ _ => rfl, fun _ _ => rfl, nofun, nofun, nofun, fun _ _ => rfl,
      fun _ _ => rfl, nofun⟩⟩

theorem inv_resetRegs (s : State) : Inv (resetRegs s) :=
  ConfigInv.inv_of_quiet
    ⟨nofun, nofun, nofun, fun _ => ⟨rfl, ⟨_, rfl⟩, rfl, rfl, rfl, rfl, rfl, rfl⟩, nofun, nofun⟩
    rfl ⟨_, rfl⟩ rfl rfl rfl rfl

theorem resetWith_eq_resetRegs (p : Params) (k : Nat) :
    State.resetWith p k = resetRegs { State.resetWith p k with free := k } := rfl

/-- Settles O56: a device right after power-on is in a state that the reset transition leads to. -/
theorem resetSatisfiesTheInvariant : Obligations.ResetSatisfiesTheInvariant := by
  have h (p : Params) (k : Nat) : AtReset (State.resetWith p k) ∧ Inv (State.resetWith p k) := by
    rw [resetWith_eq_resetRegs]; exact ⟨atReset_resetRegs _, inv_resetRegs _⟩
  obtain ⟨hreset, hinv⟩ := h Config.defaultParams 0
  exact ⟨h, hreset, hinv, rfl⟩

/-- A successful CFG (R310): the record has passed the checks, and everything else is as reset left it. -/
theorem Inv.configured {s : State} (h : Inv s) {p : List Byte} (hc : s.cfgValid = false)
    (hp : cfgValidRecord s.params.chMax p s.cfg = true) (e : ErrCode) (buf : List Byte) :
    Inv (respond e buf (configure p s)) := by
  simp only [cfgValidRecord, Bool.and_eq_true] at hp
  obtain ⟨hfrac, hregs⟩ := hp
  obtain ⟨henc, hdec, hslot, hmst, hslv, htime, -, hwait⟩ := h.config.bare hc
  exact ConfigInv.inv_of_quiet
    ⟨fun _ => hregs, fun _ => recRegs_ranges hfrac (legalRegs_of_ok hregs).band.2, fun _ => deriveRom_idem _ _ _, nofun,
      fun _ _ => ⟨hmst, htime⟩, fun _ _ => hslv⟩
    henc hdec hslot hmst hslv hwait

/-! ### What the invariant does not speak of -/

/-- The response, the trace and the ports are free of the invariant. -/
theorem Inv.ports {s : State} (h : Inv s) {resCode : ErrCode} {resBuf : List Byte} {evt : List Event}
    {snkOut : List SinkPush} {now : BitVec 64} {sched : List Agent} {hostIn : List Byte} {srcIn : List SrcReply}
    {snkIn : List Bool} {clkIn : List Nat} {free : Nat} :
    Inv { s with
      resCode := resCode, resBuf := resBuf, evt := evt, snkOut := snkOut, now := now, sched := sched, hostIn := hostIn
      srcIn := srcIn, snkIn := snkIn, clkIn := clkIn, free := free } :=
  ⟨{ h.config with }, { h.encoder with }, { h.decoder with }, { h.transport with }⟩

/-! ### The encoder -/

/-- Slot filling leaves a whole number of slots (R129, R176). -/
theorem codeBits_whole {c : CfgRegs} (hn : 0 < c.nCh) (bits : List Bool) : (codeBits c bits).length % c.nCh = 0 := by
  obtain ⟨z, -, heq, hz, -⟩ := fillSlot_eq (if c.secdedEn then fecEncStream bits else bits) c.nCh hn
  rw [codeBits, heq, List.length_append, List.length_replicate]; exact hz

/-- A bitstream of at least one group is not empty after coding. -/
theorem codeBits_ne_nil {c : CfgRegs} (hn : 0 < c.nCh) {bits : List Bool} (hb : 4 ≤ bits.length) :
    codeBits c bits ≠ [] := by
  obtain ⟨z, -, heq, -⟩ := fillSlot_eq (if c.secdedEn then fecEncStream bits else bits) c.nCh hn
  have hcoded : (if c.secdedEn then fecEncStream bits else bits) ≠ [] := by
    split
    · exact fecEncStream_ne_nil hb
    · exact List.ne_nil_of_length_pos (by omega)
  rw [codeBits, heq]
  exact List.append_ne_nil_of_left_ne_nil hcoded _

theorem frmSerialize_length (f : Frame) : 5 ≤ (frmSerialize f).length := by
  unfold frmSerialize; split <;> simp

/-- What is sent has at least one group of bits: a hex string has a digit, a Frame five bytes. -/
theorem rawBits_length {c : CfgRegs} {e : EncRegs} {bits : List Bool} (hn : 0 < c.nCh) (h : rawBits c e = .ok bits) :
    4 ≤ bits.length := by
  unfold rawBits at h
  split at h
  · split at h
    · rename_i str hstr
      cases h
      obtain ⟨z, -, heq, -⟩ := padBits_eq (binArrayFromBinStr str) c.nCh (codeFactor c) hn
      have := (hex2bin_length hstr).1
      rw [heq, List.length_append, binArrayFromBinStr, List.length_map]; omega
    · cases h
  · split at h
    · cases h
      have := frmSerialize_length ‹_›
      rw [bytes2bits_length]; omega
    · cases h

theorem validHex_error {t : List Byte} {err : ErrCode} (h : validHex t = .error err) : err = .invalidHexData := by
  unfold validHex at h
  extract_lets digits at h
  split at h
  · cases h; rfl
  · split at h <;> cases h; rfl

/-- A run that does not begin reports an error. -/
theorem rawBits_error {c : CfgRegs} {e : EncRegs} {err : ErrCode} (h : rawBits c e = .error err) : err ≠ .ok := by
  unfold rawBits at h
  split at h
  · split at h
    · cases h
    · rename_i err' herr
      cases h
      unfold hex2bin at herr
      split at herr
      · rename_i hvalid
        cases herr
        rw [validHex_error hvalid]; decide
      · cases herr
  · split at h <;> cases h
    decide

/-- The encoder's part of the invariant where a run has just begun (R173, R176). -/
theorem encoderInv_of_started {t : State} {e : EncRegs} {bits : List Bool} (hn : 0 < t.cfg.nCh)
    (hraw : rawBits t.cfg e = .ok bits) (hbits : t.enc.bits = codeBits t.cfg bits) (hslot : t.enc.slot = 0)
    (hwait : t.hostWait = true → t.enc.phase = .transmitting ∧ t.cfg.role = .standalone) : EncoderInv t where
  whole := fun _ => by rw [hbits]; exact codeBits_whole hn bits
  someSlot := fun _ => by rw [hbits]; exact codeBits_ne_nil hn (rawBits_length hn hraw)
  slot := fun _ => by rw [hslot]; exact Nat.zero_le _
  wait := hwait

section
variable {s : State} (h : Inv s)
include h

theorem Inv.configured_of_transmitting (hp : s.enc.phase = .transmitting) : s.cfgValid = true := by
  by_contra hc
  have := (h.config.bare (by simpa using hc)).1
  rw [this] at hp; cases hp

/-- Loading a payload or recording an error does not touch a run. -/
theorem Inv.encLoaded (hc : s.cfgValid = true) {hex : Option (List Byte)} {frm : Option Frame} {err lerr code : ErrCode}
    {buf : List Byte} {evt : List Event} :
    Inv { s with
      enc := { s.enc with hex := hex, frm := frm, err := err }
      lerr := lerr, resCode := code, resBuf := buf, evt := evt } :=
  ⟨h.config.of_valid hc, { h.encoder with }, { h.decoder with }, { h.transport with }⟩

/-- The run ends, and with it HOST's wait (R179, R180). -/
theorem Inv.encEnded (hc : s.cfgValid = true) {w : Bool} (hw : w = false) {err lerr code : ErrCode} {buf : List Byte}
    {evt : List Event} :
    Inv { s with
      enc := { s.enc with phase := .idle, err := err }
      hostWait := w, lerr := lerr, resCode := code, resBuf := buf, evt := evt } := by
  subst hw
  exact ⟨h.config.of_valid hc, ⟨nofun, nofun, nofun, nofun⟩, { h.decoder with },
    { h.transport with
      masterSilent := fun _ _ => rfl
      slaveSilent := fun _ _ => rfl
      exclusive := nofun }⟩

theorem Inv.releaseHost (hc : s.cfgValid = true) {e l : ErrCode} {evs : List Event} (code : ErrCode) :
    Inv (releaseHost code { s with enc := { s.enc with phase := .idle, err := e }, lerr := l, evt := evs }) := by
  unfold Machine.releaseHost
  split
  · exact h.encEnded hc rfl
  · exact h.encEnded hc (Bool.eq_false_of_not_eq_true ‹_›)

/-- The next push stays within the S + 2 pushes of the run (R46, R178). -/
theorem Inv.encPushed (hp : s.enc.phase = .transmitting) (ok : Bool) : Inv (encPushed ok s) := by
  have hc := h.configured_of_transmitting hp
  unfold Machine.encPushed
  split
  · exact h.releaseHost hc _
  · split
    · exact h.releaseHost hc _
    · rename_i hlast
      have := h.encoder.slot hp
      exact ⟨h.config.of_valid hc,
        { h.encoder with slot := fun _ => show s.enc.slot + 1 ≤ slotCount s + 1 by omega },
        { h.decoder with }, { h.transport with }⟩

theorem Inv.encTurn : Inv (encTurn s) := by
  unfold Machine.encTurn
  split
  · obtain ⟨more, n, hpush⟩ := snkPush_cases (encBuffer s) s
    have hs : Inv (snkPush (encBuffer s) s).2 := by rw [hpush]; exact h.ports
    exact hs.encPushed (by rw [hpush]; assumption) _
  · exact h

/-- The host's ENC.RUN of a standalone block (R173). -/
theorem Inv.hostRun (hc : s.cfgValid = true) (hr : s.cfg.role = .standalone) : Inv (hostRun s) := by
  simp only [Machine.hostRun]
  cases hraw : rawBits s.cfg s.enc with
  | ok bits =>
    rw [encStart_ok hraw]
    exact ⟨h.config.of_valid hc,
      encoderInv_of_started (h.config.nCh_pos hc) hraw rfl rfl fun _ => ⟨rfl, hr⟩, { h.decoder with },
      { h.transport with
        masterSilent := fun hm => absurd hm (not_isMaster (s := s) (by simp [hr]))
        slaveSilent := fun hm => absurd hm (not_isSlave (s := s) (by simp [hr]))
        exclusive := fun _ hr' => absurd hr hr' }⟩
  | error e =>
    rw [encStart_error hraw, if_neg (rawBits_error hraw)]
    exact h.encLoaded hc

end

/-! ### The decoder's buffers over one frame (R202 to R214) -/

/-- The capacities of R214, and EOT_FLAG, which only DataFrame mode sets (R211, R212). -/
structure RxFits (rxMax : Nat) (m : Mode) (d : DecRegs) : Prop where
  bytes : d.rxBytes.length ≤ rxMax
  hex : d.rxHex.length ≤ rxMax
  msg : d.msg.length ≤ 8 * rxMax
  eot : m ≠ .dataFrame → d.eot = false

/-- RAW holds whole slots, and fewer than a decode cycle takes (R32, R209). -/
def RawFits (n : Nat) (raw : List Bool) : Prop := raw.length % n = 0 ∧ raw.length < Nat.lcm n 16

/-- The buffers of received data may differ, the loop's control registers and RAW do not. -/
def SameLoop (r r' : DecRegs) : Prop := r'.run = r.run ∧ r'.alive = r.alive ∧ r'.raw = r.raw

theorem appendMsg_fits {rxMax : Nat} {m : Mode} {r : DecRegs} (h : RxFits rxMax m r) (d : List Bool) :
    RxFits rxMax m (appendMsg rxMax d r) := by
  unfold appendMsg
  split
  · exact { h with msg := by simpa using ‹_› }
  · exact { h with }

theorem newByte_fits {rxMax : Nat} {r : DecRegs} (h : RxFits rxMax .dataFrame r) (b : Byte) :
    RxFits rxMax .dataFrame (newByte rxMax r b) := by
  unfold newByte
  split
  · exact h
  · split
    · exact { h with bytes := by simpa using ‹_ < rxMax›, eot := nofun }
    · exact { h with eot := nofun }

theorem newData_fits {rxMax : Nat} {m : Mode} {r : DecRegs} (h : RxFits rxMax m r) (d : List Bool) :
    RxFits rxMax m (newData rxMax m d r) := by
  cases m with
  | simple =>
    simp only [newData, newDataSimple]
    split
    · exact { h with hex := by simpa using ‹_› }
    · exact { h with }
  | dataFrame =>
    simp only [newData, newDataFrame]
    induction bits2bytes d generalizing r with
    | nil => exact h
    | cons b bs ih => exact ih (newByte_fits h b)

theorem appendMsg_sameLoop (rxMax : Nat) (d : List Bool) (r : DecRegs) : SameLoop r (appendMsg rxMax d r) := by
  unfold appendMsg; split <;> exact ⟨rfl, rfl, rfl⟩

theorem newByte_sameLoop (rxMax : Nat) (r : DecRegs) (b : Byte) : SameLoop r (newByte rxMax r b) := by
  unfold newByte
  split
  · exact ⟨rfl, rfl, rfl⟩
  · split <;> exact ⟨rfl, rfl, rfl⟩

theorem SameLoop.trans {r r' r'' : DecRegs} (h : SameLoop r r') (h' : SameLoop r' r'') : SameLoop r r'' :=
  ⟨h'.1.trans h.1, h'.2.1.trans h.2.1, h'.2.2.trans h.2.2⟩

theorem newData_sameLoop (rxMax : Nat) (m : Mode) (d : List Bool) (r : DecRegs) :
    SameLoop r (newData rxMax m d r) := by
  cases m with
  | simple =>
    simp only [newData, newDataSimple]
    split <;> exact ⟨rfl, rfl, rfl⟩
  | dataFrame =>
    simp only [newData, newDataFrame]
    induction bits2bytes d generalizing r with
    | nil => exact ⟨rfl, rfl, rfl⟩
    | cons b bs ih => exact (newByte_sameLoop rxMax r b).trans (ih _)

/-- RAW after a cycle. -/
theorem rawFits_nil {n : Nat} (hn : 0 < n) : RawFits n [] := ⟨Nat.zero_mod n, Nat.lcm_pos hn (by decide)⟩

/-- Whole slots short of a cycle, with one slot more, are due or still short of a cycle. -/
theorem rawFits_of_not_due {n : Nat} {raw bits : List Bool} (hn : 0 < n) (h : RawFits n raw) (hb : bits.length = n)
    (hdue : cycleDue n (raw ++ bits) = false) : RawFits n (raw ++ bits) := by
  obtain ⟨hwhole, hshort⟩ := h
  obtain ⟨k, hk⟩ := Nat.dvd_of_mod_eq_zero hwhole
  obtain ⟨l, hl⟩ := Nat.dvd_lcm_left n 16
  have hlen : (raw ++ bits).length = n * (k + 1) := by rw [List.length_append, hb, hk, Nat.mul_succ]
  have hkl : k < l := Nat.lt_of_mul_lt_mul_left (a := n) (by rwa [← hk, ← hl])
  have hle : (raw ++ bits).length ≤ Nat.lcm n 16 := by rw [hlen, hl]; exact Nat.mul_le_mul_left n hkl
  have hmod : (raw ++ bits).length % n = 0 := by rw [hlen, Nat.mul_mod_right]
  refine ⟨hmod, lt_of_le_of_ne hle fun heq => ?_⟩
  have h16 : (raw ++ bits).length % 16 = 0 := by rw [heq]; exact Nat.mod_eq_zero_of_dvd (Nat.dvd_lcm_right n 16)
  have hne : (raw ++ bits).isEmpty = false := by
    rw [List.isEmpty_eq_false_iff]; exact List.ne_nil_of_length_pos (by rw [hlen]; positivity)
  rw [cycleDue, hne, hmod, h16] at hdue
  exact absurd hdue (by decide)

/-- `t` is `s` after a part of the decode of a frame: only the decoder's buffers and the trace differ, and what fitted still
fits. -/
structure Decoded (s t : State) : Prop where
  rest : t = { s with dec := { t.dec with run := s.dec.run, alive := s.dec.alive }, evt := t.evt }
  rx : RxFits s.params.rxMax s.cfg.mode s.dec → RxFits s.params.rxMax s.cfg.mode t.dec
  raw : RawFits s.cfg.nCh s.dec.raw → RawFits s.cfg.nCh t.dec.raw

theorem Decoded.of_dec {s : State} {d : DecRegs} {evt : List Event} (run : d.run = s.dec.run) (alive : d.alive = s.dec.alive)
    (rx : RxFits s.params.rxMax s.cfg.mode s.dec → RxFits s.params.rxMax s.cfg.mode d)
    (raw : RawFits s.cfg.nCh s.dec.raw → RawFits s.cfg.nCh d.raw) : Decoded s { s with dec := d, evt := evt } :=
  ⟨by rw [← run, ← alive], rx, raw⟩

theorem length_of_mapM_eq_some {α β : Type} {f : α → Option β} :
    ∀ {l : List α} {bs : List β}, l.mapM f = some bs → bs.length = l.length
  | [], _, h => by cases h; rfl
  | a :: l, bs, h => by
    simp only [List.mapM_cons, Option.bind_eq_bind, Option.bind_eq_some_iff, Option.pure_def, Option.some.injEq] at h
    obtain ⟨b, -, bs', hbs', rfl⟩ := h
    simp [length_of_mapM_eq_some hbs']

/-- An accepted slot has one bit per channel (R207). -/
theorem sliceSlot_length {s : State} {new : List Rat} {bits : List Bool} (h : sliceSlot s new = some bits) :
    bits.length = s.cfg.nCh := by
  simpa using length_of_mapM_eq_some h

/-- An accepted slot joins RAW, and the cycle takes RAW when it is due. -/
theorem acceptSlot_decoded {s : State} {bits : List Bool} (hn : 0 < s.cfg.nCh) (hb : bits.length = s.cfg.nCh) :
    Decoded s (acceptSlot (some bits) s) := by
  simp only [acceptSlot, decodeCycle]
  split
  · split
    · rename_i d _
      have hloop := (appendMsg_sameLoop s.params.rxMax d { s.dec with raw := [] }).trans
        (newData_sameLoop s.params.rxMax s.cfg.mode d _)
      obtain ⟨hrun, halive, hraw⟩ := hloop
      exact .of_dec hrun halive (fun hf => newData_fits (appendMsg_fits (r := { s.dec with raw := [] }) { hf with } d) d)
        fun _ => by rw [hraw]; exact rawFits_nil hn
    · exact .of_dec rfl rfl (fun _ => ⟨Nat.zero_le _, Nat.zero_le _, Nat.zero_le _, fun _ => rfl⟩)
        fun _ => rawFits_nil hn
  · exact .of_dec rfl rfl (fun hf => { hf with }) fun hraw =>
      rawFits_of_not_due hn hraw hb (Bool.eq_false_of_not_eq_true ‹_›)

theorem updateOld_eq (s : State) (det : List (Option Rat)) :
    ∃ old, updateOld s det = { s with dec := { s.dec with old := old } } := by
  unfold updateOld; split
  · exact ⟨_, rfl⟩
  · exact ⟨s.dec.old, rfl⟩

/-- Steps 5 to 8 of the decode keep the buffers in their bounds (R202 to R214). -/
theorem trackFrame_decoded {s : State} (hn : 0 < s.cfg.nCh) (det : List (Option Rat)) : Decoded s (trackFrame det s) := by
  obtain ⟨old, hold⟩ := updateOld_eq s det
  have hkept : Decoded s { s with dec := { s.dec with old := old } } := .of_dec rfl rfl (fun hf => { hf with }) id
  unfold trackFrame
  rw [hold]
  split
  · cases hslot : sliceSlot s (newVals det) with
    | none => exact hkept
    | some bits =>
      have h := acceptSlot_decoded (s := { s with dec := { s.dec with old := old } }) hn (sliceSlot_length hslot)
      exact ⟨h.rest, h.rx ∘ hkept.rx, h.raw⟩
  · exact hkept

/-! ### The decoder -/

/-- The decoder's part of the invariant where it has just been started (R190). -/
theorem decoderInv_of_started {s : State} (hn : 0 < s.cfg.nCh) (hc : s.cfgValid = true)
    (hav : s.cfg.nfftValid = true ∧ s.cfg.thrValid = true) : DecoderInv (startDecoder s) where
  run := fun _ => rfl
  handoff := nofun
  rawWhole := fun _ => (rawFits_nil hn).1
  rawShort := fun _ => (rawFits_nil hn).2
  bytesFit := Nat.zero_le _
  hexFits := Nat.zero_le _
  msgFits := Nat.zero_le _
  noEot := fun _ => rfl
  available := fun _ => ⟨hc, hav⟩
  joined := nofun
  frame := nofun

section
variable {s : State} (h : Inv s)
include h

/-- A standalone block starts its decoder (R190). -/
theorem Inv.decStarted (hc : s.cfgValid = true) (hr : s.cfg.role = .standalone)
    (hav : s.cfg.nfftValid = true ∧ s.cfg.thrValid = true) : Inv (startDecoder s) := by
  have hmst := (h.config.noMaster hc (by simp [hr])).1
  exact ⟨h.config.of_valid hc, { h.encoder with }, decoderInv_of_started (h.config.nCh_pos hc) hc hav,
    { h.transport with
      tmo := fun ht => absurd (show s.mst.tmo = true from ht) (by rw [hmst]; decide)
      masterQuiet := fun hm => absurd hm (not_isMaster (s := s) (by simp [hr]))
      masterWaits := fun hm => absurd hm (not_isMaster (s := s) (by simp [hr]))
      slaveQuiet := fun hm => absurd hm (not_isSlave (s := s) (by simp [hr]))
      exclusive := fun _ hr' => absurd hr hr' }⟩

/-- A block whose master does not wait for it is told to stop its decoder (R191, R289). -/
theorem Inv.decStopped (hc : s.cfgValid = true) (hr : s.cfg.role ≠ .master) : Inv (stopDecoder s) :=
  ⟨h.config.of_valid hc, { h.encoder with }, { h.decoder with run := nofun },
    { h.transport with
      tmo := fun ht => ⟨(h.transport.tmo ht).1, rfl⟩
      masterWaits := fun hm => absurd hm (not_isMaster (s := s) hr) }⟩

/-- DEC.RDFRM takes the result (R217). -/
theorem Inv.slotTaken (hc : s.cfgValid = true) (hr : s.cfg.role ≠ .master) : Inv { s with hslot := none } :=
  ⟨h.config.of_valid hc, { h.encoder with }, { h.decoder with handoff := nofun },
    { h.transport with masterWaits := fun hm => absurd hm (not_isMaster (s := s) hr) }⟩

/-- The running decoder's loop ends (R193, R213, R215): at the loop's top, with a result in the slot unless it was told to
stop. -/
theorem Inv.decExits (ha : s.dec.alive = true) {d : DecRegs} {slot : Option TransmissionResult} {lerr : ErrCode}
    {evt : List Event} {free : Nat} (hslot : s.dec.run = false ∨ slot.isSome = true)
    (hd : d.run = false ∧ d.alive = false ∧ d.phase = .top) (hraw : RawFits s.cfg.nCh d.raw)
    (hrx : RxFits s.params.rxMax s.cfg.mode d) :
    Inv { s with dec := d, hslot := slot, lerr := lerr, evt := evt, free := free } := by
  obtain ⟨hrun, hdead, htop⟩ := hd
  have hc := (h.decoder.available ha).1
  have hempty : s.hslot.isSome = false :=
    Bool.eq_false_of_not_eq_true fun hs => absurd (ha.symm.trans (h.decoder.handoff hs)) (by decide)
  exact ⟨h.config.of_valid hc, { h.encoder with },
    { run := fun hr => absurd hr (by simp [hrun])
      handoff := fun _ => hdead
      rawWhole := fun _ => hraw.1
      rawShort := fun _ => hraw.2
      bytesFit := hrx.bytes
      hexFits := hrx.hex
      msgFits := hrx.msg
      noEot := fun ha' => absurd ha' (by simp [hdead])
      available := fun ha' => absurd ha' (by simp [hdead])
      joined := fun _ => htop
      frame := fun hp => absurd hp (by simp [htop]) },
    { h.transport with
      tmo := fun ht => ⟨(h.transport.tmo ht).1, hrun⟩
      masterQuiet := fun _ _ => hdead
      masterWaits := fun hm hs ht => .inr (hslot.elim
        (fun hr => by simpa [hr, hempty] using h.transport.masterWaits hm hs ht) id)
      slaveQuiet := fun _ _ => hdead
      exclusive := fun _ _ _ => hdead }⟩

/-- What the decoder's part says of the buffers of a configured block. -/
theorem Inv.rawFits (hc : s.cfgValid = true) : RawFits s.cfg.nCh s.dec.raw :=
  ⟨h.decoder.rawWhole hc, h.decoder.rawShort hc⟩

theorem Inv.rxFits (ha : s.dec.alive = true) : RxFits s.params.rxMax s.cfg.mode s.dec :=
  ⟨h.decoder.bytesFit, h.decoder.hexFits, h.decoder.msgFits, fun _ => h.decoder.noEot ha⟩

theorem Inv.decPulled (ha : s.dec.alive = true) (hp : s.dec.phase = .top) {r : SrcReply}
    (hr : r = .err ∨ ∃ samples, r = .ok samples ∧ samples.length = s.rom.nDec) : Inv (decPulled r s) := by
  have hc := (h.decoder.available ha).1
  obtain rfl | ⟨samples, rfl, hlen⟩ := hr
  · exact h.decExits ha (.inr rfl) ⟨rfl, rfl, hp⟩ (h.rawFits hc) { h.rxFits ha with }
  · exact ⟨h.config.of_valid hc, { h.encoder with },
      { h.decoder with
        joined := fun hd => absurd (ha.symm.trans hd) (by decide)
        frame := fun _ => hlen },
      { h.transport with }⟩

theorem Inv.decTop (ha : s.dec.alive = true) (hp : s.dec.phase = .top) : Inv (decTop s) := by
  unfold Machine.decTop
  split
  · exact h.decExits ha (.inl ‹_›) ⟨‹_›, rfl, hp⟩ (h.rawFits (h.decoder.available ha).1) { h.rxFits ha with }
  · obtain ⟨more, n, hs, hr⟩ := srcPull_cases s
    have h' : Inv { s with srcIn := more, free := n } := h.ports
    dsimp only
    rw [hs]
    exact h'.decPulled ha hp hr

theorem Inv.decBody (ha : s.dec.alive = true) : Inv (decBody s) := by
  have hc := (h.decoder.available ha).1
  have hd : Decoded s (decodeAudio s) := trackFrame_decoded (h.config.nCh_pos hc) _
  have hraw := hd.raw (h.rawFits hc)
  have hrx := hd.rx (h.rxFits ha)
  simp only [Machine.decBody, bodyEnd]
  generalize decodeAudio s = t at *
  have ht := hd.rest
  generalize t.dec = d, t.evt = evt at *
  subst ht
  split
  · rename_i hend
    exact h.decExits ha (.inr rfl) ⟨rfl, rfl, rfl⟩ hraw { hrx with }
  · rename_i hend
    have hnoEot : d.eot = false := Bool.eq_false_of_not_eq_true fun he =>
      hend ⟨by_contra fun hm => absurd (he.symm.trans (hrx.eot hm)) (by decide), he⟩
    exact ⟨h.config.of_valid hc, { h.encoder with },
      { run := h.decoder.run
        handoff := h.decoder.handoff
        rawWhole := fun _ => hraw.1
        rawShort := fun _ => hraw.2
        bytesFit := hrx.bytes
        hexFits := hrx.hex
        msgFits := hrx.msg
        noEot := fun _ => hnoEot
        available := h.decoder.available
        joined := fun _ => rfl
        frame := nofun },
      { h.transport with }⟩

theorem Inv.decTurn : Inv (decTurn s) := by
  unfold Machine.decTurn
  split
  · rename_i ha
    split
    · exact h.decTop ha ‹_›
    · exact h.decBody ha
  · exact h

end

end Sys2Proof.Machine
end

section
/-! PROOF. The invariant under the turns of HOST, MASTER and SLAVE, and under the step. -/

namespace Sys2Proof.Machine

/-! ### A received Frame's instruction (R113) -/

/-- What a received Frame's instruction does is up to the transport: a master retries, logs and retries, or confirms. -/
theorem exec_ctrlOfFrame (f : Frame) (s : State) : ∃ accept callback,
    (accept = mRetry ∨ accept = (fun s => mRetry (emit .logNakReceived s)) ∨ accept = mConfirm) ∧
      exec (ctrlOfFrame f) s = .next (receive f.receiverAddress accept callback s) := by
  unfold ctrlOfFrame
  split
  · exact ⟨_, _, .inl rfl, rfl⟩
  · split
    · exact ⟨_, _, .inr (.inr rfl), rfl⟩
    · split
      · exact ⟨_, _, .inr (.inl rfl), rfl⟩
      · exact ⟨_, _, .inl rfl, rfl⟩

/-! ### The master -/

section
variable {s : State} (h : Inv s)
include h

theorem Inv.txWait_false (hs : s.mst.state ≠ .sending) : s.mst.txWait = false :=
  Bool.eq_false_of_not_eq_true fun ht => hs (h.transport.txWait ht)

theorem Inv.tmo_false (hs : s.mst.state ≠ .awaitingResponse) : s.mst.tmo = false :=
  Bool.eq_false_of_not_eq_true fun ht => hs (h.transport.tmo ht).1

theorem Inv.slaveTxWait_false (hs : s.slv.state ≠ .idle) : s.slv.txWait = false :=
  Bool.eq_false_of_not_eq_true fun ht => hs (h.transport.slaveTx ht).1

/-- DataFrame mode and an available decoder of a transport role (R311). -/
theorem Inv.transportRole (hc : s.cfgValid = true) (hr : s.cfg.role ≠ .standalone) :
    s.cfg.mode = .dataFrame ∧ s.cfg.nfftValid = true ∧ s.cfg.thrValid = true :=
  (h.config.legalRegs hc).transport hr

variable (hm : isMaster s = true)
include hm

/-- The master leaves an attempt, or is between attempts, with its decoder exited and its encoder idle: whatever it does to
the slot and to the registers that count the attempts. -/
theorem Inv.attemptOver (hq : s.dec.alive = false) (hi : s.enc.phase = .idle) {m : MasterRegs}
    {slot : Option TransmissionResult} {lerr : ErrCode} {evt : List Event}
    (hm' : m.state ≠ .awaitingResponse ∧ m.txWait = false ∧ m.tmo = false)
    (hlast : m.state ≠ .idle → m.last.isSome = true) :
    Inv { s with mst := m, hslot := slot, lerr := lerr, evt := evt } := by
  obtain ⟨hc, hr⟩ := isMaster_iff.1 hm
  obtain ⟨hstate, htx, htmo⟩ := hm'
  exact ⟨h.config.of_valid hc (mst := fun hr' => absurd hr hr'), { h.encoder with },
    { h.decoder with handoff := fun _ => hq },
    { h.transport with
      action := hlast
      txWait := fun ht => absurd (htx.symm.trans ht) (by decide)
      tmo := fun ht => absurd (htmo.symm.trans ht) (by decide)
      masterQuiet := fun _ _ => hq
      masterSilent := fun _ _ => hi
      masterWaits := fun _ hs => absurd hs hstate }⟩

theorem Inv.m1 : Inv (m1 s) := by
  obtain ⟨hc, hr⟩ := isMaster_iff.1 hm
  exact ⟨h.config.of_valid hc (mst := fun hr' => absurd hr hr'), { h.encoder with }, { h.decoder with },
    { h.transport with }⟩

theorem Inv.m2 (hs : s.mst.state = .idle) (hp : s.mst.pend.isSome = true) : Inv (m2 s) := by
  have htx := h.txWait_false (by simp [hs])
  exact h.attemptOver hm (h.transport.masterQuiet hm (by simp [hs])) (h.transport.masterSilent hm htx)
    ⟨by simp, htx, h.tmo_false (by simp [hs])⟩ fun _ => hp

theorem Inv.m3 (hs : s.mst.state = .sending) (htx : s.mst.txWait = false) : Inv (m3 s) :=
  h.attemptOver hm (h.transport.masterQuiet hm (by simp [hs])) (h.transport.masterSilent hm htx)
    ⟨by simp, htx, h.tmo_false (by simp [hs])⟩ fun hi => absurd rfl hi

theorem Inv.m4 (hs : s.mst.state = .sending) (htx : s.mst.txWait = false) : Inv (m4 s) := by
  obtain ⟨hc, hr⟩ := isMaster_iff.1 hm
  have hquiet := h.transport.masterQuiet hm (by simp [hs])
  unfold Machine.m4
  split
  · unfold mTransmit
    split
    · exact h.attemptOver hm hquiet (h.transport.masterSilent hm htx) ⟨by simp, htx, h.tmo_false (by simp [hs])⟩
        fun hi => absurd rfl hi
    · have hraw := rawBits_frame (c := s.cfg) (e := { s.enc with frm := some ‹Frame› })
        (h.transportRole hc (by simp [hr])).1 rfl
      rw [encStart_ok hraw]
      exact ⟨h.config.of_valid hc (mst := fun hr' => absurd hr hr'),
        encoderInv_of_started (h.config.nCh_pos hc) hraw rfl rfl fun hw => ⟨rfl, (h.encoder.wait hw).2⟩,
        { h.decoder with },
        { h.transport with
          txWait := fun _ => hs
          masterSilent := nofun
          slaveSilent := fun hsl => absurd hsl (not_isSlave (s := s) (by simp [hr]))
          exclusive := fun _ _ _ => hquiet }⟩
  · exact h

theorem Inv.mSent (hs : s.mst.state = .sending) (hi : s.enc.phase = .idle) (act : Action) :
    Inv (mSent act { s with mst := { s.mst with txWait := false } }) := by
  obtain ⟨hc, hr⟩ := isMaster_iff.1 hm
  have hquiet := h.transport.masterQuiet hm (by simp [hs])
  simp only [Machine.mSent]
  split
  · exact h.attemptOver hm hquiet hi ⟨by simp, rfl, h.tmo_false (by simp [hs])⟩ fun hi => absurd rfl hi
  · exact ⟨h.config.of_valid hc (mst := fun hr' => absurd hr hr'), { h.encoder with },
      { decoderInv_of_started (h.config.nCh_pos hc) hc (h.transportRole hc (by simp [hr])).2 with },
      { h.transport with
        action := fun _ => h.transport.action (by simp [hs])
        txWait := nofun
        tmo := nofun
        masterQuiet := fun _ hs' => absurd rfl hs'
        masterSilent := fun _ _ => hi
        masterWaits := fun _ _ _ => .inl ⟨rfl, rfl⟩
        slaveQuiet := fun hsl => absurd hsl (not_isSlave (s := s) (by simp [hr]))
        exclusive := fun _ _ hp => absurd (hi.symm.trans hp) (by decide) }⟩

theorem Inv.m5 (hs : s.mst.state = .sending) (hi : s.enc.phase = .idle) : Inv (m5 s) := by
  have hquiet := h.transport.masterQuiet hm (by simp [hs])
  have htmo := h.tmo_false (by simp [hs])
  have hlast := h.transport.action (by simp [hs])
  simp only [Machine.m5]
  split
  · exact h.attemptOver hm hquiet hi ⟨by simp, rfl, htmo⟩ fun _ => hlast
  · split
    · exact h.mSent hm hs hi _
    · exact h.attemptOver hm hquiet hi ⟨by simp [hs], rfl, htmo⟩ fun _ => hlast

/-- The master tells its decoder to stop, for a stop or for the timeout (R272, R274). -/
theorem Inv.joinBegins (hs : s.mst.state = .awaitingResponse) :
    Inv { s with dec := { s.dec with run := false }, mst := { s.mst with tmo := true } } := by
  obtain ⟨hc, hr⟩ := isMaster_iff.1 hm
  exact ⟨h.config.of_valid hc (mst := fun hr' => absurd hr hr'), { h.encoder with }, { h.decoder with run := nofun },
    { h.transport with
      tmo := fun _ => ⟨hs, rfl⟩
      masterWaits := nofun }⟩

/-- An attempt that awaited its response and whose decoder has exited: over, with the result taken. -/
theorem Inv.responseOver (hs : s.mst.state = .awaitingResponse) (hq : s.dec.alive = false) {m : MasterRegs}
    {evt : List Event} (hlast : m.last = s.mst.last) (hstate : m.state ≠ .awaitingResponse) (htx : m.txWait = s.mst.txWait)
    (htmo : m.tmo = false) : Inv { s with mst := m, hslot := none, evt := evt } := by
  have htx' := h.txWait_false (by simp [hs])
  exact h.attemptOver hm hq (h.transport.masterSilent hm htx') ⟨hstate, htx.trans htx', htmo⟩
    fun _ => by rw [hlast]; exact h.transport.action (by simp [hs])

theorem Inv.m9 (hs : s.mst.state = .awaitingResponse) (hq : s.dec.alive = false) : Inv (m9 s) := by
  simp only [Machine.m9]
  split
  · exact h.responseOver hm hs hq rfl (by simp) rfl rfl
  · exact h.responseOver hm hs hq rfl (by simp) rfl rfl

theorem Inv.m6 (hs : s.mst.state = .awaitingResponse) (htmo : s.mst.tmo = false) (hslot : s.hslot.isSome = true) {t : State}
    (ht : m6 s = .next t) : Inv t := by
  have hq := h.decoder.handoff hslot
  have retried (evt : List Event) : Inv (mRetry { s with hslot := none, evt := evt }) :=
    h.responseOver hm hs hq rfl (by simp) rfl htmo
  have confirmed (evt : List Event) : Inv (mConfirm { s with hslot := none, evt := evt }) :=
    h.responseOver hm hs hq rfl (by simp) rfl htmo
  unfold Machine.m6 at ht
  split at ht
  · split at ht
    · rename_i i hdec
      obtain ⟨f, rfl, -⟩ := decodeFrame_ok hdec
      obtain ⟨accept, callback, haccept, hexec⟩ := exec_ctrlOfFrame f { s with hslot := none }
      rw [hexec] at ht
      cases ht
      rw [receive, if_pos (show isMaster { s with hslot := none } = true from hm)]
      simp only [mReceive]
      split
      · obtain rfl | rfl | rfl := haccept
        · exact retried _
        · exact retried _
        · exact confirmed _
      · exact retried _
    · cases ht; exact retried _
  · cases ht; exact retried _
  · cases ht; exact h

theorem Inv.mRun {k : MStep} (hg : mGuard s k = true) {t : State} (ht : mRun k s = .next t) : Inv t := by
  cases k
  case m6 =>
    obtain ⟨hs, htmo, hslot⟩ := of_decide_eq_true hg
    exact h.m6 hm hs htmo hslot ht
  all_goals cases ht
  case m1 => exact h.m1 hm
  case m2 =>
    obtain ⟨hs, -, hp⟩ := of_decide_eq_true hg
    exact h.m2 hm hs hp
  case m3 =>
    obtain ⟨hs, htx, -⟩ := of_decide_eq_true hg
    exact h.m3 hm hs htx
  case m4 =>
    obtain ⟨hs, htx, -⟩ := of_decide_eq_true hg
    exact h.m4 hm hs htx
  case m5 =>
    obtain ⟨hs, -, hi⟩ := of_decide_eq_true hg
    exact h.m5 hm hs hi
  case m7 => exact h.joinBegins hm (of_decide_eq_true hg).1
  case m8 => exact h.joinBegins hm (of_decide_eq_true (Bool.and_eq_true_iff.1 hg).1).1
  case m9 =>
    obtain ⟨hs, -, hq⟩ := of_decide_eq_true hg
    exact h.m9 hm hs hq

end

theorem Inv.masterTurn {s t : State} (h : Inv s) (ht : masterTurn s = .next t) : Inv t := by
  unfold Machine.masterTurn at ht
  split at ht
  · rename_i hm
    split at ht
    · rename_i k hk
      exact h.mRun hm (List.find?_some hk) ht
    · cases ht; exact h
  · cases ht; exact h

/-! ### The slave -/

section
variable {s : State} (h : Inv s) (hs : isSlave s = true)
include h hs

/-- The slave is Idle with its decoder exited and its encoder idle, whatever it owes. -/
theorem Inv.slaveRests (hq : s.dec.alive = false) (hi : s.enc.phase = .idle) {v : SlaveRegs}
    {slot : Option TransmissionResult} {evt : List Event} (hstate : v.state = .idle) (htx : v.txWait = false) :
    Inv { s with slv := v, hslot := slot, evt := evt } := by
  obtain ⟨hc, hr⟩ := isSlave_iff.1 hs
  exact ⟨h.config.of_valid hc (slv := fun hr' => absurd hr hr'), { h.encoder with },
    { h.decoder with handoff := fun _ => hq },
    { h.transport with
      masterWaits := fun hm => absurd hm (not_isMaster (s := s) (by simp [hr]))
      slaveTx := fun ht => absurd (htx.symm.trans ht) (by decide)
      slaveOwes := fun hv => absurd (hstate.symm.trans hv) (by decide)
      slaveQuiet := fun _ _ => hq
      slaveSilent := fun _ _ => hi }⟩

theorem Inv.s1 (hst : s.slv.state = .idle) : Inv (s1 s) := by
  obtain ⟨hc, hr⟩ := isSlave_iff.1 hs
  have hquiet := h.transport.slaveQuiet hs hst
  unfold Machine.s1
  split
  · rename_i c hreply
    have hraw := rawBits_frame (c := s.cfg) (e := { s.enc with frm := some (cmdFrame MASTER_ADDR c) })
      (h.transportRole hc (by simp [hr])).1 rfl
    rw [encStart_ok hraw]
    exact ⟨h.config.of_valid hc (slv := fun hr' => absurd hr hr'),
      encoderInv_of_started (h.config.nCh_pos hc) hraw rfl rfl fun hw => ⟨rfl, (h.encoder.wait hw).2⟩,
      { h.decoder with },
      { h.transport with
        masterSilent := fun hm => absurd hm (not_isMaster (s := s) (by simp [hr]))
        slaveTx := fun _ => ⟨hst, by simp [hreply]⟩
        slaveSilent := nofun
        exclusive := fun _ _ _ => hquiet }⟩
  · exact h

theorem Inv.s2 (htx : s.slv.txWait = false) (hreply : s.slv.reply = none) : Inv (s2 s) := by
  obtain ⟨hc, hr⟩ := isSlave_iff.1 hs
  have hmst := (h.config.noMaster hc (by simp [hr])).1
  have hi := h.transport.slaveSilent hs htx
  exact ⟨h.config.of_valid hc (slv := fun hr' => absurd hr hr'), { h.encoder with },
    { decoderInv_of_started (h.config.nCh_pos hc) hc (h.transportRole hc (by simp [hr])).2 with },
    { h.transport with
      tmo := fun ht => absurd (show s.mst.tmo = true from ht) (by rw [hmst]; decide)
      masterQuiet := fun hm => absurd hm (not_isMaster (s := s) (by simp [hr]))
      masterWaits := fun hm => absurd hm (not_isMaster (s := s) (by simp [hr]))
      slaveTx := fun ht => absurd (htx.symm.trans ht) (by decide)
      slaveOwes := fun _ => hreply
      slaveQuiet := nofun
      exclusive := fun _ _ hp => absurd (hi.symm.trans hp) (by decide) }⟩

theorem Inv.s3 (hst : s.slv.state = .idle) (hi : s.enc.phase = .idle) : Inv (s3 s) := by
  have hquiet := h.transport.slaveQuiet hs hst
  simp only [Machine.s3]
  split <;> exact h.slaveRests hs hquiet hi hst rfl

theorem Inv.s4 (hst : s.slv.state = .receiving) (hslot : s.hslot.isSome = true) {t : State}
    (ht : s4 s = .next t) : Inv t := by
  obtain ⟨-, hr⟩ := isSlave_iff.1 hs
  have htx := h.slaveTxWait_false (by simp [hst])
  have rests {v : SlaveRegs} {evt : List Event} : v.state = .idle → v.txWait = false →
      Inv { s with slv := v, hslot := none, evt := evt } :=
    h.slaveRests hs (h.decoder.handoff hslot) (h.transport.slaveSilent hs htx)
  unfold Machine.s4 at ht
  split at ht
  · split at ht
    · rename_i i hdec
      obtain ⟨f, rfl, -⟩ := decodeFrame_ok hdec
      obtain ⟨accept, callback, -, hexec⟩ := exec_ctrlOfFrame f { s with hslot := none }
      rw [hexec] at ht
      cases ht
      rw [receive, if_neg (by simp [isMaster, hr]), if_pos (show isSlave { s with hslot := none } = true from hs)]
      simp only [sReceive]
      split
      · exact rests rfl htx
      · exact rests rfl htx
    · cases ht; exact rests rfl htx
  · cases ht; exact rests (evt := s.evt) rfl htx
  · cases ht; exact h

theorem Inv.s6 (hst : s.slv.state = .receiving) (hq : s.dec.alive = false) : Inv (s6 s) :=
  have htx := h.slaveTxWait_false (by simp [hst])
  h.slaveRests hs hq (h.transport.slaveSilent hs htx) rfl htx

theorem Inv.sRun {k : SStep} (hg : sGuard s k = true) {t : State} (ht : sRun k s = .next t) : Inv t := by
  obtain ⟨hc, hr⟩ := isSlave_iff.1 hs
  cases k
  case s4 =>
    obtain ⟨hst, hslot⟩ := of_decide_eq_true hg
    exact h.s4 hs hst hslot ht
  all_goals cases ht
  case s1 => exact h.s1 hs (of_decide_eq_true hg).1
  case s2 =>
    obtain ⟨-, htx, hreply, -⟩ := of_decide_eq_true hg
    exact h.s2 hs htx hreply
  case s3 =>
    obtain ⟨hst, -, hi⟩ := of_decide_eq_true hg
    exact h.s3 hs hst hi
  case s5 => exact h.decStopped hc (by simp [hr])
  case s6 =>
    obtain ⟨hst, -, hq⟩ := of_decide_eq_true hg
    exact h.s6 hs hst hq

end

theorem Inv.slaveTurn {s t : State} (h : Inv s) (ht : slaveTurn s = .next t) : Inv t := by
  unfold Machine.slaveTurn at ht
  split at ht
  · rename_i hs
    split at ht
    · rename_i k hk
      exact h.sRun hs (List.find?_some hk) ht
    · cases ht; exact h
  · cases ht; exact h

/-! ### The host -/

@[simp] theorem firstError_needCfg (s : State) (l : List (Option ErrCode)) :
    firstError (needCfg s :: l) = .ok ↔ s.cfgValid = true ∧ firstError l = .ok := by
  cases hc : s.cfgValid <;> simp [hc]

@[simp] theorem firstError_needNoCfg (s : State) (l : List (Option ErrCode)) :
    firstError (needNoCfg s :: l) = .ok ↔ s.cfgValid = false ∧ firstError l = .ok := by
  cases hc : s.cfgValid <;> simp [hc]

@[simp] theorem firstError_needRole (r : Role) (s : State) (l : List (Option ErrCode)) :
    firstError (needRole r s :: l) = .ok ↔ s.cfg.role = r ∧ firstError l = .ok := by
  by_cases hr : s.cfg.role = r <;> simp [hr]

@[simp] theorem firstError_needMode (m : Mode) (s : State) (l : List (Option ErrCode)) :
    firstError (needMode m s :: l) = .ok ↔ s.cfg.mode = m ∧ firstError l = .ok := by
  by_cases hm : s.cfg.mode = m <;> simp [hm]

@[simp] theorem firstError_needDecoder (s : State) (l : List (Option ErrCode)) :
    firstError (needDecoder s :: l) = .ok ↔ (s.cfg.nfftValid = true ∧ s.cfg.thrValid = true) ∧ firstError l = .ok := by
  by_cases hd : s.cfg.nfftValid = true ∧ s.cfg.thrValid = true <;> simp [needDecoder, hd]

@[simp] theorem firstError_needValidRecord (p : List Byte) (s : State) (l : List (Option ErrCode)) :
    firstError (needValidRecord p s :: l) = .ok ↔ cfgValidRecord s.params.chMax p s.cfg = true ∧ firstError l = .ok := by
  cases hp : cfgValidRecord s.params.chMax p s.cfg <;> simp [needValidRecord, hp]

/-- HOST's packets are host operations (R92). -/
theorem opcodeOf_hostInstr {op : Byte} {o : Operands} {i : Instr} (h : hostInstr op o = some i) :
    (opcodeOf i).isSome = true := by
  unfold hostInstr at h
  split at h <;> cases h <;> rfl

theorem opcodeOf_decodePacket {bs rest : List Byte} {i : Instr} (h : decodePacket bs = .ok (i, rest)) :
    (opcodeOf i).isSome = true := by
  unfold decodePacket at h
  split at h
  · split at h
    · cases h
    · split at h
      · rename_i hi
        cases h
        exact opcodeOf_hostInstr hi
      · cases h
  · cases h

section
variable {s : State} (h : Inv s)
include h

theorem Inv.hostOp {form : Bool} {checks : List (Option ErrCode)} {body : State → State}
    (hb : firstError checks = .ok → Inv (body s)) : Inv (hostOp form checks body s) :=
  hostOp_keeps (fun _ => h.ports) fun _ => hb

/-- A pure operation writes the response alone. -/
theorem Inv.answer (r : Except ErrCode (List Byte)) : Inv (answer r s) := by
  cases r <;> exact h.ports

theorem Inv.loadFrame (hc : s.cfgValid = true) (r : Except ErrCode Frame) : Inv (loadFrame r s) := by
  cases r with
  | ok f => exact h.encLoaded hc
  | error e => exact h.ports

/-- The master's registers that HOST writes are not those that sequence its attempts (R261 to R265). -/
theorem Inv.hostMaster (hc : s.cfgValid = true) (hr : s.cfg.role = .master) {pend : Option Action} {stopReq : Bool}
    {timeout : BitVec 32} {code : ErrCode} {buf : List Byte} :
    Inv { s with
      mst := { s.mst with pend := pend, stopReq := stopReq }
      timeoutMs := timeout, resCode := code, resBuf := buf } :=
  ⟨h.config.of_valid hc (mst := fun hr' => absurd hr hr'), { h.encoder with }, { h.decoder with }, { h.transport with }⟩

/-- Nor is the slave's (R282, R283). -/
theorem Inv.hostSlave (hc : s.cfgValid = true) (hr : s.cfg.role = .slave) {run : Bool} {code : ErrCode} {buf : List Byte} :
    Inv { s with slv := { s.slv with run := run }, resCode := code, resBuf := buf } :=
  ⟨h.config.of_valid hc (slv := fun hr' => absurd hr hr'), { h.encoder with }, { h.decoder with }, { h.transport with }⟩

theorem Inv.execHost {i : Instr} (hi : (opcodeOf i).isSome = true) {t : State} (ht : exec i s = .next t) : Inv t := by
  cases i <;> cases ht
  case stx | ack | nak | cmdOther => cases hi
  case rst => exact h.hostOp fun _ => inv_resetRegs s
  case rdst => exact h.hostOp fun _ => h.ports
  all_goals
    refine h.hostOp fun hok => ?_
    simp only [firstError_needCfg, firstError_needNoCfg, firstError_needRole, firstError_needMode, firstError_needDecoder,
      firstError_needValidRecord] at hok
  case cfg =>
    obtain ⟨hc, hp, -⟩ := hok
    exact h.configured hc hp _ _
  case hex2bin | bstr2arr | bin2hex | fecEnc | fecDec | frmBuild | frmParse => exact h.answer _
  case decRdhex | mIdle => exact h.ports
  case encLdhex => exact h.encLoaded hok.1
  case encLdfrm => exact h.loadFrame hok.1 _
  case encRun =>
    obtain ⟨hc, hr, -⟩ := hok
    exact h.hostRun hc hr
  case decStart =>
    obtain ⟨hc, hr, hav, -⟩ := hok
    exact (h.decStarted hc hr hav).ports
  case decStop =>
    obtain ⟨hc, hr, -⟩ := hok
    exact (h.decStopped hc (by simp [hr])).ports
  case decRdfrm =>
    obtain ⟨hc, hr, -⟩ := hok
    exact (h.slotTaken hc (by simp [hr])).ports
  case mSend | mSendbc | mStop | mSetto =>
    obtain ⟨hc, hr, -⟩ := hok
    exact h.hostMaster hc hr
  case sStart | sStop =>
    obtain ⟨hc, hr, -⟩ := hok
    exact h.hostSlave hc hr

theorem Inv.hostTurn {t : State} (ht : hostTurn s = .next t) : Inv t := by
  unfold Machine.hostTurn at ht
  split at ht
  · cases ht; exact h
  · split at ht
    · rename_i i rest hdec
      have h' : Inv { s with hostIn := rest } := h.ports
      exact h'.execHost (opcodeOf_decodePacket hdec) ht
    · cases ht; exact h.ports
    · cases ht; exact h

/-! ### The step -/

theorem Inv.agentTurn {a : Agent} {t : State} (ht : agentTurn a s = .next t) : Inv t := by
  cases a
  case host => exact h.hostTurn ht
  case master => exact h.masterTurn ht
  case slave => exact h.slaveTurn ht
  all_goals cases ht
  case enc => exact h.encTurn
  case dec => exact h.decTurn
  case clk => unfold clkTurn; split <;> exact h.ports
  case resetIn => exact inv_resetRegs s

end

theorem Inv.step {s t : State} (h : Inv s) (ht : step s = .next t) : Inv t := by
  obtain ⟨turns, n, hturn⟩ := takeTurn_rest s
  have h' : Inv (takeTurn s).2 := by rw [hturn]; exact h.ports
  exact h'.agentTurn ht

/-- Settles O57: every agent's turn keeps the four parts of the invariant. -/
theorem stepKeepsTheInvariant : Obligations.StepKeepsTheInvariant := fun _ _ h ht => h.step ht

end Sys2Proof.Machine
end

section
/-! PROOF. The slot buffers: what a legal configuration says of the tone ROM (R161 to R164), of the sum of its lanes (R177)
and of the samples that are pushed (R165). -/

namespace Sys2Proof.Machine

/-! ### The lengths of a tone buffer (R26, R162) -/

theorem ratCeil_eq (x : Rat) : x.ceil = ⌈x⌉ :=
  eq_of_forall_ge_iff fun _ => Rat.ceil_le_iff.trans Int.ceil_le.symm

/-- The silence before the sound and the sound fit into the buffer: N_BRK is at most the break's samples, and a whole number
of samples may be taken out of a ceiling. -/
theorem sounding_fits {c : CfgRegs} (hrate : 0 < c.sampleRate) (hpulse : 0 < c.tOnePulse) (hbreak : 0 ≤ c.tBreak) :
    lenBrk c + lenDec c ≤ lenEnc c := by
  have hpause : 0 ≤ c.tBreak * c.sampleRate := by positivity
  have hsound : 0 ≤ c.tOnePulse * c.sampleRate := by positivity
  have hsplit : ⌊c.tBreak * c.sampleRate / 2⌋ + ⌈c.tOnePulse * c.sampleRate⌉
      ≤ ⌈(c.tOnePulse + c.tBreak) * c.sampleRate⌉ := by
    rw [add_comm, ← Int.ceil_add_intCast]
    have := Int.floor_le (c.tBreak * c.sampleRate / 2)
    exact Int.ceil_mono (by linarith)
  have hpauseInt : 0 ≤ ⌊c.tBreak * c.sampleRate / 2⌋ := Int.floor_nonneg.2 (by linarith)
  have hsoundInt : 0 ≤ ⌈c.tOnePulse * c.sampleRate⌉ := Int.ceil_nonneg hsound
  show ⌊c.tBreak * c.sampleRate / 2⌋.toNat + (c.tOnePulse * c.sampleRate).ceil.toNat
    ≤ ((c.tOnePulse + c.tBreak) * c.sampleRate).ceil.toNat
  rw [ratCeil_eq, ratCeil_eq]
  omega

/-! ### One tone (R162 to R164) -/

theorem abs_numSin_le (x : Rat) : |numSin x| ≤ 1 := by
  unfold numSin
  split
  · simp
  · exact abs_le.2 ⟨le_max_left _ _, max_le (by norm_num) (min_le_left _ _)⟩

/-- Inside the sounding segment the envelope lies in 0..1. -/
theorem envelope_mem {fade nAct j : Nat} (hj : j < nAct) : 0 ≤ envelope fade nAct j ∧ envelope fade nAct j ≤ 1 := by
  unfold envelope
  split
  · norm_num
  · have hlast : (j : Rat) + 1 ≤ nAct := by exact_mod_cast hj
    have hleft : (0 : Rat) ≤ nAct - 1 - j := by linarith
    exact ⟨le_min zero_le_one (le_min (by positivity) (div_nonneg hleft (Nat.cast_nonneg _))), min_le_left _ _⟩

theorem abs_toneSample_le (c : CfgRegs) (f : Rat) (k : Nat) : |toneSample c f k| ≤ 1 := by
  unfold toneSample
  split
  · rename_i hk
    obtain ⟨hnonneg, hle⟩ := envelope_mem (fade := lenFade c) (show k - lenBrk c < lenDec c by omega)
    rw [abs_mul, abs_of_nonneg hnonneg]
    exact mul_le_one₀ hle (abs_nonneg _) (abs_numSin_le _)
  · simp

theorem toneSample_silent {c : CfgRegs} {k : Nat} (h : k < lenBrk c ∨ lenBrk c + lenDec c ≤ k) (f : Rat) :
    toneSample c f k = 0 := if_neg (by omega)

/-- The tone of the statement, whose time runs on rationals, is the tone of the ROM. -/
theorem toneValue_eq {c : CfgRegs} {r : Rom} (hbrk : r.nBrk = lenBrk c) (hact : r.nAct = lenDec c)
    (hfade : r.lFade = lenFade c) (f : Rat) (k : Nat) : toneValue c r f k = toneSample c f k := by
  simp only [toneValue, toneSample, envelope, hbrk, hact, hfade]
  by_cases hk : lenBrk c ≤ k ∧ k < lenBrk c + lenDec c
  · rw [if_pos hk, if_pos hk, Nat.cast_sub hk.1]
  · rw [if_neg hk, if_neg hk]

/-- The ROM holds the tone of every channel and bit (R160, R161). -/
theorem toneRom_getD {c : CfgRegs} {i : Nat} (hi : i < c.nCh) :
    (toneRom c).getD i ([], []) = (toneBuffer c (freq c i false), toneBuffer c (freq c i true)) := by
  simp [toneRom, hi]

theorem memRead_toneBuffer {c : CfgRegs} {k : Nat} (hk : k < lenEnc c) (f : Rat) :
    memRead (toneBuffer c f) k = toneSample c f k := by
  simp [memRead, toneBuffer, hk]

theorem freq_eq (c : CfgRegs) (i : Nat) (b : Bool) :
    freq c i b = c.firstFreq + (if b then c.freqStep else 0) + i * 2 * c.freqStep := by
  cases b <;> simp [freq, lowFreq, highFreq]

/-! ### Quantising (R165) -/

theorem trunc_eq (x : Rat) : trunc x = if 0 ≤ x then ⌊x⌋ else ⌈x⌉ := by
  rw [trunc, ratCeil_eq]; rfl

theorem quantised_eq (x : Rat) : quantised x = trunc (32767 * x) := by
  have hsign : 0 ≤ 32767 * x ↔ 0 ≤ x := mul_nonneg_iff_of_pos_left (by norm_num)
  simp only [quantised, trunc_eq, hsign]

/-- Truncation toward zero stays between whole bounds on both sides of zero. -/
theorem abs_trunc_le {x : Rat} {n : Int} (h : |x| ≤ n) : |trunc x| ≤ n := by
  rw [trunc_eq]
  split
  · rename_i hx
    rw [abs_of_nonneg hx] at h
    rw [abs_of_nonneg (Int.floor_nonneg.2 hx)]
    exact_mod_cast (Int.floor_le x).trans h
  · rename_i hx
    rw [abs_of_neg (not_le.1 hx)] at h
    rw [abs_of_nonpos (Int.ceil_nonpos.2 (not_le.1 hx).le), neg_le]
    exact Int.le_ceil_iff.2 (by push_cast; linarith)

/-- A value in −1..1 is not clipped. -/
theorem q16_toInt {x : Rat} (h : |x| ≤ 1) : (q16 x).toInt = quantised x := by
  have hscaled : |32767 * x| ≤ ((32767 : Int) : Rat) := by
    rw [abs_mul]; norm_num; linarith
  obtain ⟨hlow, hhigh⟩ := abs_le.1 (abs_trunc_le hscaled)
  rw [quantised_eq, q16, BitVec.toInt_ofInt, min_eq_right (by omega), max_eq_right (by omega)]
  exact Int.bmod_eq_of_le (by omega) (by omega)

theorem q16_zero : q16 0 = 0 := by
  rw [q16, trunc_eq]; simp

/-! ### The mix (R177) -/

@[simp] theorem mixSlot_length (s : State) (slot : Nat) : (mixSlot s slot).length = s.rom.nEnc := by simp [mixSlot]

theorem mixSlot_getElem? {s : State} {k : Nat} (slot : Nat) (hk : k < s.rom.nEnc) :
    (mixSlot s slot)[k]? = some (q16 (mixSum s slot k / s.cfg.nCh)) := by
  simp [mixSlot, hk]

theorem mixSum_eq_sum_lanes (s : State) (slot k : Nat) :
    mixSum s slot k = ∑ i ∈ Finset.range s.cfg.nCh, laneSample s slot k i := rfl

section
variable {s : State} (h : ConfigInv s) (hc : s.cfgValid = true)
include h hc

/-- The ROM and the lengths of a configured block are those of its configuration (R26, R78). -/
theorem ConfigInv.derived : s.rom.tone = toneRom s.cfg ∧ s.rom.nEnc = lenEnc s.cfg ∧ s.rom.nBrk = lenBrk s.cfg ∧
    s.rom.nAct = lenDec s.cfg ∧ s.rom.lFade = lenFade s.cfg := by
  rw [← h.fresh hc]; exact ⟨rfl, rfl, rfl, rfl, rfl⟩

/-- Each lane plays the tone of the bit it carries (R63). -/
theorem ConfigInv.laneSample_eq {k i : Nat} (slot : Nat) (hk : k < s.rom.nEnc) (hi : i < s.cfg.nCh) :
    laneSample s slot k i = toneSample s.cfg (freq s.cfg i (s.enc.bits.getD (slot * s.cfg.nCh + i) false)) k := by
  obtain ⟨htone, henc, -⟩ := h.derived hc
  rw [henc] at hk
  simp only [laneSample, htone, toneRom_getD hi]
  cases s.enc.bits.getD (slot * s.cfg.nCh + i) false <;> exact memRead_toneBuffer hk _

theorem ConfigInv.mixSum_eq {k : Nat} (slot : Nat) (hk : k < s.rom.nEnc) : mixSum s slot k =
    ∑ i ∈ Finset.range s.cfg.nCh,
      toneSample s.cfg (freq s.cfg i (s.enc.bits.getD (slot * s.cfg.nCh + i) false)) k := by
  rw [mixSum_eq_sum_lanes]
  exact Finset.sum_congr rfl fun _ hi => h.laneSample_eq hc slot hk (Finset.mem_range.1 hi)

/-- Each of the n lanes stays in −1..1, so their sum divided by n does. -/
theorem ConfigInv.abs_mix_le {k : Nat} (slot : Nat) (hk : k < s.rom.nEnc) : |mixSum s slot k / s.cfg.nCh| ≤ 1 := by
  have hn : (0 : Rat) < s.cfg.nCh := Nat.cast_pos.2 (h.nCh_pos hc)
  rw [abs_div, abs_of_pos hn, div_le_one hn, h.mixSum_eq hc slot hk]
  refine (Finset.abs_sum_le_sum_abs _ _).trans ?_
  exact (Finset.sum_le_card_nsmul _ _ 1 fun i _ => abs_toneSample_le _ _ k).trans (by simp)

theorem ConfigInv.mixSum_silent {k : Nat} (slot : Nat) (hk : k < s.rom.nEnc)
    (hout : k < s.rom.nBrk ∨ s.rom.nBrk + s.rom.nAct ≤ k) : mixSum s slot k = 0 := by
  obtain ⟨-, -, hbrk, hact, -⟩ := h.derived hc
  rw [hbrk, hact] at hout
  rw [h.mixSum_eq hc slot hk]
  exact Finset.sum_eq_zero fun i _ => toneSample_silent hout _

theorem ConfigInv.sounding_fits : s.rom.nBrk + s.rom.nAct ≤ s.rom.nEnc := by
  obtain ⟨hpulse, hbreak, -⟩ := h.ranges hc
  obtain ⟨-, henc, hbrk, hact, -⟩ := h.derived hc
  rw [henc, hbrk, hact]
  exact Machine.sounding_fits (h.legalRegs hc).sampleRate hpulse hbreak

theorem ConfigInv.mixSum_tones {slot k : Nat} {bit : Nat → Bool} (hk : k < s.rom.nEnc)
    (hbit : ∀ i < s.cfg.nCh, s.enc.bits[slot * s.cfg.nCh + i]? = some (bit i)) :
    mixSum s slot k = ∑ i ∈ Finset.range s.cfg.nCh, toneValue s.cfg s.rom
      (s.cfg.firstFreq + (if bit i then s.cfg.freqStep else 0) + i * 2 * s.cfg.freqStep) k := by
  obtain ⟨-, -, hbrk, hact, hfade⟩ := h.derived hc
  rw [h.mixSum_eq hc slot hk]
  refine Finset.sum_congr rfl fun i hi => ?_
  rw [← freq_eq, toneValue_eq hbrk hact hfade, List.getD_eq_getElem?_getD, hbit i (Finset.mem_range.1 hi),
    Option.getD_some]

end

/-- Settles O26: in a configured block every lane is the tone of its bit, which is silent outside the sounding segment and
stays in −1..1, so the mix is not clipped. -/
theorem slotsAreSilentOutsideTheSound : Obligations.SlotsAreSilentOutsideTheSound := by
  intro s slot h hc
  refine ⟨mixSlot_length s slot, h.sounding_fits hc, fun k hk hout => ?_, fun k hk => h.abs_mix_le hc slot hk,
    fun bit hbit k hk => ⟨_, mixSlot_getElem? slot hk, ?_⟩⟩
  · rw [mixSlot_getElem? slot hk, h.mixSum_silent hc slot hk hout, zero_div, q16_zero]
  · rw [q16_toInt (h.abs_mix_le hc slot hk), h.mixSum_tones hc hk hbit]

end Sys2Proof.Machine
end

section
/-! PROOF. The handoff slot (R74): which operations keep HSLOT, which clear it, and the two exits of DEC that fill it. -/

namespace Sys2Proof.Machine

/-- From `s` to `t` nothing was put into HSLOT: it is as it was, or empty. -/
def NoDeposit (s t : State) : Prop := t.hslot = s.hslot ∨ t.hslot = none

theorem NoDeposit.refl (s : State) : NoDeposit s s := .inl rfl

/-- Where the slot was taken or kept before, and then kept. -/
theorem NoDeposit.trans {s u t : State} (h : NoDeposit s u) (h' : NoDeposit u t) : NoDeposit s t :=
  h'.elim (fun ht => h.imp ht.trans ht.trans) .inr

theorem noDeposit_hostOp {form : Bool} {checks : List (Option ErrCode)} {body : State → State} {s : State}
    (h : NoDeposit s (body s)) : NoDeposit s (hostOp form checks body s) :=
  hostOp_keeps (fun _ => .inl rfl) fun _ _ => h

/-! ### The encoder and the clock keep the slot -/

@[simp] theorem encStart_hslot (s : State) : (encStart s).2.hslot = s.hslot := by
  cases h : rawBits s.cfg s.enc with
  | ok bits => rw [encStart_ok h]
  | error e => rw [encStart_error h, emit_hslot, setEncErr_hslot]

@[simp] theorem releaseHost_hslot (e : ErrCode) (s : State) : (releaseHost e s).hslot = s.hslot := by
  unfold releaseHost; split <;> rfl

@[simp] theorem encPushed_hslot (ok : Bool) (s : State) : (encPushed ok s).hslot = s.hslot := by
  unfold encPushed
  split
  · simp [encFail]
  · split
    · simp [encDone]
    · rfl

@[simp] theorem encTurn_hslot (s : State) : (encTurn s).hslot = s.hslot := by
  obtain ⟨more, n, hpush⟩ := snkPush_cases (encBuffer s) s
  unfold encTurn
  split
  · simp [encPush, hpush]
  · rfl

@[simp] theorem clkTurn_hslot (s : State) : (clkTurn s).hslot = s.hslot := by
  unfold clkTurn; split <;> rfl

/-! ### The transports clear the slot at most -/

theorem noDeposit_m4 (s : State) : NoDeposit s (m4 s) := by
  unfold m4
  split
  · unfold mTransmit
    split
    · exact .inl rfl
    · exact .inl (encStart_hslot _)
  · exact .refl s

theorem noDeposit_mSent (act : Action) (s : State) : NoDeposit s (mSent act s) := by
  simp only [mSent]
  split
  · exact .inl rfl
  · exact .inr rfl

theorem noDeposit_m5 (s : State) : NoDeposit s (m5 s) := by
  simp only [m5]
  split
  · exact .inl rfl
  · split
    · exact noDeposit_mSent _ _
    · exact .inl rfl

theorem m9_hslot (s : State) : (m9 s).hslot = none := by
  simp only [m9]; split <;> rfl

theorem noDeposit_s1 (s : State) : NoDeposit s (s1 s) := by
  unfold s1
  split
  · exact .inl (encStart_hslot _)
  · exact .refl s

theorem noDeposit_s3 (s : State) : NoDeposit s (s3 s) := by
  simp only [s3]; split <;> exact .inl rfl

theorem noDeposit_receive (addr : Byte) {accept : State → State} (ha : ∀ u, (accept u).hslot = u.hslot)
    (callback : Event) (s : State) : NoDeposit s (receive addr accept callback s) := by
  unfold receive
  split
  · simp only [mReceive]
    split
    · exact .inl (ha _)
    · exact .inl rfl
  · split
    · simp only [sReceive]; split <;> exact .inl rfl
    · exact .refl s

/-! ### The instructions -/

@[simp] theorem answer_hslot (r : Except ErrCode (List Byte)) (s : State) : (answer r s).hslot = s.hslot := by
  cases r <;> rfl

@[simp] theorem loadFrame_hslot (r : Except ErrCode Frame) (s : State) : (loadFrame r s).hslot = s.hslot := by
  cases r <;> rfl

@[simp] theorem hostRun_hslot (s : State) : (hostRun s).hslot = s.hslot := by
  simp only [hostRun]; split <;> exact encStart_hslot s

/-- No instruction fills HSLOT; RST, DEC.START and DEC.RDFRM empty it (R350, R190, R217). -/
theorem noDeposit_exec {i : Instr} {s t : State} (h : exec i s = .next t) : NoDeposit s t := by
  cases i <;> cases h
  case cfg | rdst | encLdhex | decStop | decRdhex | mSend | mSendbc | mIdle | mStop | mSetto | sStart | sStop =>
    exact noDeposit_hostOp (.inl rfl)
  case rst | decStart | decRdfrm => exact noDeposit_hostOp (.inr rfl)
  case hex2bin | bstr2arr | bin2hex | fecEnc | fecDec | frmBuild | frmParse =>
    exact noDeposit_hostOp (.inl (answer_hslot _ s))
  case encLdfrm => exact noDeposit_hostOp (.inl (loadFrame_hslot _ s))
  case encRun => exact noDeposit_hostOp (.inl (hostRun_hslot s))
  case stx | ack | nak | cmdOther =>
    apply noDeposit_receive
    intro u
    rfl

/-! ### The turns of the agents other than DEC -/

theorem noDeposit_hostTurn {s t : State} (h : hostTurn s = .next t) : NoDeposit s t := by
  unfold hostTurn at h
  split at h
  · cases h; exact .refl s
  · split at h
    · exact (noDeposit_exec h :)
    · cases h; exact .inl rfl
    · cases h; exact .refl s

/-- MASTER and SLAVE take the result out of the slot before they act on it. -/
theorem noDeposit_taken {s t : State} (h : NoDeposit { s with hslot := none } t) : NoDeposit s t :=
  .trans (.inr rfl) h

theorem noDeposit_m6 {s t : State} (h : m6 s = .next t) : NoDeposit s t := by
  unfold m6 at h
  split at h
  · split at h
    · exact noDeposit_taken (noDeposit_exec h)
    · cases h; exact .inr rfl
  · cases h; exact .inr rfl
  · cases h; exact .refl s

theorem noDeposit_s4 {s t : State} (h : s4 s = .next t) : NoDeposit s t := by
  unfold s4 at h
  split at h
  · split at h
    · exact noDeposit_taken (noDeposit_exec h)
    · cases h; exact .inr rfl
  · cases h; exact .inr rfl
  · cases h; exact .refl s

theorem noDeposit_mRun {k : MStep} {s t : State} (h : mRun k s = .next t) : NoDeposit s t := by
  cases k
  case m6 => exact noDeposit_m6 h
  all_goals cases h
  case m1 | m2 | m3 | m7 | m8 => exact .inl rfl
  case m4 => exact noDeposit_m4 s
  case m5 => exact noDeposit_m5 s
  case m9 => exact .inr (m9_hslot s)

theorem noDeposit_sRun {k : SStep} {s t : State} (h : sRun k s = .next t) : NoDeposit s t := by
  cases k
  case s4 => exact noDeposit_s4 h
  all_goals cases h
  case s1 => exact noDeposit_s1 s
  case s2 => exact .inr rfl
  case s3 => exact noDeposit_s3 s
  case s5 | s6 => exact .inl rfl

theorem noDeposit_masterTurn {s t : State} (h : masterTurn s = .next t) : NoDeposit s t := by
  unfold masterTurn at h
  split at h
  · split at h
    · exact noDeposit_mRun h
    · cases h; exact .refl s
  · cases h; exact .refl s

theorem noDeposit_slaveTurn {s t : State} (h : slaveTurn s = .next t) : NoDeposit s t := by
  unfold slaveTurn at h
  split at h
  · split at h
    · exact noDeposit_sRun h
    · cases h; exact .refl s
  · cases h; exact .refl s

theorem noDeposit_agentTurn {a : Agent} {s t : State} (ha : a ≠ .dec) (h : agentTurn a s = .next t) :
    NoDeposit s t := by
  cases a
  case dec => exact absurd rfl ha
  case host => exact noDeposit_hostTurn h
  case master => exact noDeposit_masterTurn h
  case slave => exact noDeposit_slaveTurn h
  all_goals cases h
  case enc => exact .inl (encTurn_hslot s)
  case clk => exact .inl (clkTurn_hslot s)
  case resetIn => exact .inr rfl

/-! ### The decoder (R193, R195, R213, R215) -/

/-- `t` is where DEC has left its loop, with RX_BYTES or a source error in HSLOT. -/
def ExitedWithResult (t : State) : Prop :=
  t.dec.alive = false ∧ (t.hslot = some (.bytes t.dec.rxBytes) ∨ t.hslot = some .sourceError)

@[simp] theorem updateOld_hslot (s : State) (det : List (Option Rat)) : (updateOld s det).hslot = s.hslot := by
  obtain ⟨old, hold⟩ := updateOld_eq s det
  rw [hold]

@[simp] theorem decodeCycle_hslot (s : State) : (decodeCycle s).hslot = s.hslot := by
  unfold decodeCycle
  split
  · split <;> rfl
  · rfl

@[simp] theorem acceptSlot_hslot (slot : Option (List Bool)) (s : State) : (acceptSlot slot s).hslot = s.hslot := by
  cases slot with
  | none => rfl
  | some bits => exact decodeCycle_hslot _

@[simp] theorem trackFrame_hslot (det : List (Option Rat)) (s : State) : (trackFrame det s).hslot = s.hslot := by
  unfold trackFrame; split <;> simp

/-- At the loop's top a source error is deposited, and nothing else (R193, R215). -/
theorem decTop_deposit (s : State) : (decTop s).hslot = s.hslot ∨ ExitedWithResult (decTop s) := by
  unfold decTop
  split
  · exact .inl rfl
  · obtain ⟨more, n, hpull, herr | ⟨samples, hok, -⟩⟩ := srcPull_cases s
    · simp only [herr, hpull]; exact .inr ⟨rfl, .inr rfl⟩
    · simp only [hok, hpull]; exact .inl rfl

/-- After a frame an end of transmission deposits RX_BYTES (R195, R213). -/
theorem decBody_deposit (s : State) : (decBody s).hslot = s.hslot ∨ ExitedWithResult (decBody s) := by
  simp only [decBody, bodyEnd]
  split
  · exact .inr ⟨rfl, .inl rfl⟩
  · exact .inl (trackFrame_hslot _ s)

/-- A turn of DEC fills HSLOT only where it leaves a loop that was running. -/
theorem decTurn_deposit (s : State) :
    (decTurn s).hslot = s.hslot ∨ (s.dec.alive = true ∧ ExitedWithResult (decTurn s)) := by
  unfold decTurn
  split
  · rename_i halive
    split
    · exact (decTop_deposit s).imp_right fun h => ⟨halive, h⟩
    · exact (decBody_deposit s).imp_right fun h => ⟨halive, h⟩
  · exact .inl rfl

/-- Settles O34: the turns of the other agents keep or clear HSLOT, and DEC fills it at its two exits only. -/
theorem handoffIsWrittenOnExit : Obligations.HandoffIsWrittenOnExit := by
  intro s t h hchanged hfilled
  obtain ⟨turns, n, hturn⟩ := takeTurn_rest s
  rw [step, hturn] at h
  by_cases hagent : (takeTurn s).1 = .dec
  · rw [hagent] at h
    cases h
    obtain ⟨halive, hdead, hresult⟩ := (decTurn_deposit { s with sched := turns, free := n }).resolve_left hchanged
    exact ⟨hagent, halive, hdead, hresult⟩
  · exact ((noDeposit_agentTurn hagent h).elim hchanged hfilled).elim

end Sys2Proof.Machine
end

section
/-! PROOF. The HOST port (R90 to R92, R96): the opcode list, what a turn of HOST does with the packet at the front of its
port, and the refusal of malformed packets. -/

namespace Sys2Proof.Machine

/-! ### The opcode list (R92) -/

/-- The opcode the decoder read an operation from is the one the encoder gives it. -/
theorem opcodeOf_eq_of_hostInstr {op : Byte} {o : Operands} {i : Instr} (h : hostInstr op o = some i) :
    opcodeOf i = some op := by
  unfold hostInstr at h
  split at h <;> cases h <;> exact congrArg some (BitVec.eq_of_toNat_eq (Eq.symm ‹_›))

/-- An opcode outside the list of R92 stands for no operation. -/
theorem hostInstr_unlisted {op : Byte}
    (h : op ∉ [0x01, 0x02, 0x03, 0x10, 0x11, 0x12, 0x18, 0x19, 0x20, 0x21, 0x22, 0x30, 0x31, 0x32, 0x33, 0x40, 0x41, 0x50,
      0x51, 0x52, 0x53, 0x54, 0x58, 0x59]) (o : Operands) : hostInstr op o = none := by
  refine Option.eq_none_iff_forall_ne_some.mpr fun i hi => h ?_
  have hop := opcodeOf_eq_of_hostInstr hi
  cases i <;> cases hop <;> decide

/-! ### A turn of HOST (R81, R90, R96) -/

/-- HOST is blocked during its own ENC.RUN (R81; log 14). -/
theorem hostTurn_blocked {s : State} (h : s.hostWait = true) : hostTurn s = .next s := by
  simp [hostTurn, h]

theorem hostTurn_packet {s : State} (hw : s.hostWait = false) {i : Instr} {rest : List Byte}
    (h : decodePacket s.hostIn = .ok (i, rest)) : hostTurn s = exec i { s with hostIn := rest } := by
  simp [hostTurn, hw, h]

theorem hostTurn_badOpcode {s : State} (hw : s.hostWait = false) {op : Byte} {rest : List Byte}
    (h : decodePacket s.hostIn = .error (.badOpcode op rest)) :
    hostTurn s = .next { s with hostIn := rest, resCode := .badOpcode, resBuf := [] } := by
  simp [hostTurn, hw, h, deliverError, respond]

/-- HOST waits where no whole packet has arrived (log 4). -/
theorem hostTurn_incomplete {s : State} (h : decodePacket s.hostIn = .error .incomplete) : hostTurn s = .next s := by
  cases hw : s.hostWait <;> simp [hostTurn, hw, h]

/-- Settles O52: the listed turn is HOST's, and each case is what that turn does. -/
theorem stepRunsTheHostPacket : Obligations.StepRunsTheHostPacket := by
  intro s turns hs
  rw [step_listed hs]
  refine ⟨fun i rest hw hdec => hostTurn_packet (s := { s with sched := turns }) hw hdec, ?_⟩
  rintro (hw | hdec)
  · exact hostTurn_blocked hw
  · exact hostTurn_incomplete hdec

/-- Settles O49: the packet decodes to a bad opcode with the bytes after it. -/
theorem reservedOpcodesAreRefused : Obligations.ReservedOpcodesAreRefused := by
  intro s turns op flags a b len rest hop hs hw hin hlen
  have hdec : decodePacket s.hostIn = .error (.badOpcode op (rest.drop len.toNat)) := by
    rw [hin, decodePacket_packet op flags a b len rest hlen, hostInstr_unlisted hop]
  rw [step_listed hs]
  exact hostTurn_badOpcode (s := { s with sched := turns }) hw hdec

/-! ### Malformed packets (R96, R324) -/

/-- What breaks the packet's form breaks that of ENC.LDHEX, which bounds the string as well (R170). -/
theorem formHex_malformed {hexMax : Nat} {o : Operands} (h : formPayload o = false ∨ hexMax < o.payload.length) :
    formHex hexMax o = false := by
  obtain h | h := h <;> simp [formHex, h]

/-- Settles O48: every listed operation is a host operation that checks its form first; the form is the instruction's
well-formedness, but for ENC.LDHEX, where it is stricter. -/
theorem malformedPacketsAreRefused : Obligations.MalformedPacketsAreRefused := by
  refine ⟨fun op o i s hi hwf => ?_, fun o s hlong => ?_⟩
  · have hhost := opcodeOf_hostInstr hi
    cases i
    case stx | ack | nak | cmdOther => cases hhost
    case encLdhex => exact congrArg _ (hostOp_malformed (formHex_malformed (.inl hwf)) _ _ s)
    all_goals exact congrArg _ (hostOp_malformed hwf _ _ s)
  · exact congrArg _ (hostOp_malformed (formHex_malformed (.inr hlong)) _ _ s)

end Sys2Proof.Machine
end

section
/-! PROOF. Decoding inverts encoding: packets (R90 to R95), and Frames through the parser (R102, R104, R113). -/

namespace Sys2Proof.Machine

/-! ### Packets -/

/-- The words of a well-formed host operation are the packet of its operands (R90, R92), and the byte `len` can carry the
length of the payload: its form says so, or allows no payload. -/
theorem encode_hostOperation {i : Instr} {op : Byte} (h : opcodeOf i = some op) (hwf : i.wellFormed = true) :
    ∃ o, hostInstr op o = some i ∧ encode i = packetBytes op o ∧ o.payload.length ≤ 255 := by
  cases i <;> cases h <;> refine ⟨_, rfl, rfl, ?_⟩
  case fecEnc | fecDec =>
    simp only [Instr.wellFormed, formNibble, formByte, Bool.and_eq_true, List.isEmpty_iff] at hwf
    simp [hwf]
  all_goals
    simp only [Instr.wellFormed, formCfg, formPlain, formBinStr, formBitArray, formTimeout, formPayload, formBroadcast,
      formCmdData, formParse, formLen, Bool.and_eq_true, decide_eq_true_eq] at hwf
    simp only [hwf]

/-- A packet whose length fits its byte decodes to the operation of its opcode, whatever bytes follow it. -/
theorem decodePacket_packetBytes {op : Byte} {o : Operands} {i : Instr} (hi : hostInstr op o = some i)
    (hlen : o.payload.length ≤ 255) (rest : List Byte) : decodePacket (packetBytes op o ++ rest) = .ok (i, rest) := by
  have hbyte : (BitVec.ofNat 8 o.payload.length).toNat = o.payload.length := by
    rw [BitVec.toNat_ofNat]; omega
  have hpacket := decodePacket_packet op o.flags o.a o.b (BitVec.ofNat 8 o.payload.length) (o.payload ++ rest)
    (by simp [hbyte])
  simpa [packetBytes, hbyte, hi] using hpacket

/-! ### Frames -/

/-- Parsing a command-only Frame gives it back (R249), with the address check of the device. -/
theorem frmParse_cmdFrame {addr cmd : Byte} {dev : Option Byte} (n : Nat) (hcmd : cmd ≠ STX)
    (hdev : checkAddress addr dev ≠ .otherRecipient) :
    frmParse (frmSerialize (cmdFrame addr cmd)) n dev = (some (cmdFrame addr cmd), .parsingOk, checkAddress addr dev) := by
  show frmParse (SOH :: addr :: cmd :: [5, EOT]) n dev = _
  rw [frmParse_body n (by simp) hdev]
  simp [parseBody, rebuildFrame, frmBuild, hcmd, cmdFrame, wireChecksum]

/-- Up to 16 channels a Frame with data is not padded (R234), and its length fits the checksum byte. -/
theorem dataFrame_small {k : Nat} (addr : Byte) {data : List Byte} (hk : k ≤ 4) (hlen : data.length ≤ 127) :
    dataFrame (2 ^ k) addr data =
      { receiverAddress := addr, command := STX, data := some data, checksum := BitVec.ofNat 8 (data.length + 6) } := by
  rw [dataFrame, frmPad_small k data hk, lengthByte_of_lt (by omega)]

/-- Parsing a Frame with data gives it back for up to 16 channels where no data byte is ETX (R249). -/
theorem frmParse_dataFrame {k : Nat} {addr : Byte} {data : List Byte} {dev : Option Byte} (hk : k ≤ 4) (hne : data ≠ [])
    (hlen : data.length ≤ 127) (hetx : ETX ∉ data) (hdev : checkAddress addr dev ≠ .otherRecipient) :
    frmParse (frmSerialize (dataFrame (2 ^ k) addr data)) (2 ^ k) dev =
      (some (dataFrame (2 ^ k) addr data), .parsingOk, checkAddress addr dev) := by
  have hbuild : frmBuild (2 ^ k) addr (some STX) (some data) = .ok (dataFrame (2 ^ k) addr data) := by
    simp [frmBuild, hne, hlen]
  have hspan := dataSpan_split data [(dataFrame (2 ^ k) addr data).checksum, EOT] hetx
  generalize hf : dataFrame (2 ^ k) addr data = f at hbuild hspan
  have hwire : frmSerialize f = SOH :: addr :: STX :: (data ++ ETX :: [f.checksum, EOT]) := by
    rw [← hf, dataFrame_small addr hk hlen]; simp [frmSerialize]
  have hsum : wireChecksum (frmSerialize f) = f.checksum := by
    rw [hwire]
    simp [wireChecksum]
  rw [hwire] at hsum ⊢
  rw [frmParse_body _ (by simp) hdev]
  simp [parseBody, rebuildFrame, hspan, hbuild, hsum]

theorem decodeFrame_of_frmParse {n : Nat} {dev : Option Byte} {bs : List Byte} {f : Frame} {r : ParserResult × AddrCheck}
    (h : frmParse bs n dev = (some f, r)) : decodeFrame n dev bs = .ok (ctrlOfFrame f) := by
  simp [decodeFrame, h]

/-- Settles O54: packets by their length byte, Frames as the parser gives them back. -/
theorem decodeInvertsEncode : Obligations.DecodeInvertsEncode := by
  refine ⟨fun i op rest hop hwf => ?_, fun k dev addr cmd data hk hdev i hi hwf => ?_⟩
  · obtain ⟨o, hi, henc, hlen⟩ := encode_hostOperation hop hwf
    rw [henc]
    exact decodePacket_packetBytes hi hlen rest
  · have command {c : Byte} (hc : c ≠ STX) :
        decodeFrame (2 ^ k) dev [0x01, addr, c, 0x05, 0x04] = .ok (ctrlOfFrame (cmdFrame addr c)) :=
      decodeFrame_of_frmParse (frmParse_cmdFrame (2 ^ k) hc hdev)
    simp only [List.mem_cons, List.not_mem_nil, or_false] at hi
    obtain rfl | rfl | rfl | rfl := hi
    · simp only [Instr.wellFormed, Bool.and_eq_true, Bool.not_eq_true', List.isEmpty_eq_false_iff, decide_eq_true_eq,
        List.contains_eq_mem, decide_eq_false_iff_not] at hwf
      obtain ⟨⟨hne, hlen⟩, hetx⟩ := hwf
      have hparse := decodeFrame_of_frmParse (frmParse_dataFrame hk hne hlen hetx hdev)
      rw [dataFrame_small addr hk hlen] at hparse
      exact hparse
    · exact command (by decide)
    · exact command (by decide)
    · simp only [Instr.wellFormed, Bool.and_eq_true, bne_iff_ne] at hwf
      obtain ⟨⟨hstx, hack⟩, hnak⟩ := hwf
      refine (command hstx).trans ?_
      simp [ctrlOfFrame, cmdFrame, hstx, hack, hnak]

/-- Settles O55: each word runs through the decoder. -/
theorem specWordsDecode : Obligations.SpecWordsDecode :=
  ⟨rfl, rfl, rfl, rfl, rfl, rfl, rfl, rfl, rfl⟩

end Sys2Proof.Machine
end

section
/-! PROOF. A whole transmission (R112, R178, R179): one turn of ENC with an accepting sink, and the run of such turns. -/

namespace Sys2Proof.Machine

/-! ### One turn of ENC (R178) -/

/-- The buffer of the push numbered `i` of a run (R178). -/
def pushBuffer (s : State) (i : Nat) : List Sample := encBuffer { s with enc := { s.enc with slot := i } }

/-- The sink has accepted the next push of the run; `turns` and `acks` are left of the schedule and of the replies. -/
def accepted (turns : List Agent) (acks : List Bool) (s : State) : State :=
  { s with sched := turns, snkIn := acks, snkOut := s.snkOut ++ [{ buf := pushBuffer s s.enc.slot, ok := true }] }

/-- After an accepted push that was not the last: the run goes on with the next slot. -/
def nextSlot (turns : List Agent) (acks : List Bool) (s : State) : State :=
  { accepted turns acks s with enc := { s.enc with slot := s.enc.slot + 1 } }

section
variable {s : State} {turns : List Agent} {acks : List Bool} (hp : s.enc.phase = .transmitting)
  (hs : s.sched = .enc :: turns) (ha : s.snkIn = true :: acks)
include hp hs ha

theorem step_encPush : step s = .next (encPushed true (accepted turns acks s)) := by
  rw [step_listed hs]
  show Host.Outcome.next (encTurn _) = _
  rw [encTurn, if_pos hp, encPush, snkPush_listed (s := { s with sched := turns }) ha]
  rfl

theorem step_encPush_more (hslot : s.enc.slot ≠ slotCount s + 1) : step s = .next (nextSlot turns acks s) :=
  (step_encPush hp hs ha).trans (congrArg _ (if_neg hslot))

theorem step_encPush_last (hslot : s.enc.slot = slotCount s + 1) : step s = .next (encDone (accepted turns acks s)) :=
  (step_encPush hp hs ha).trans (congrArg _ (if_pos hslot))

end

/-! ### The run of turns -/

/-- A run begins with the state after one step. -/
theorem run_succ_of_step {M : Host.Core} {s t : M.State} (h : M.step s = .next t) (k : Nat) :
    M.run (k + 1) s = M.run k t := by simp only [Host.Core.run, h]

/-- The end of a transmission that handed over `bufs` from `s` on (R179). -/
def transmitted (turns : List Agent) (acks : List Bool) (bufs : List (List Sample)) (s : State) : State :=
  encDone { s with
    sched := turns, snkIn := acks, snkOut := s.snkOut ++ bufs.map fun buf => { buf := buf, ok := true }
    enc := { s.enc with slot := slotCount s + 1 } }

/-- A transmission is one push and the transmission from the next slot on. -/
theorem transmitted_nextSlot (turns turns' : List Agent) (acks acks' : List Bool) (bufs : List (List Sample)) (s : State) :
    transmitted turns acks bufs (nextSlot turns' acks' s) = transmitted turns acks (pushBuffer s s.enc.slot :: bufs) s := by
  have hout : (nextSlot turns' acks' s).snkOut ++ bufs.map (fun buf => ({ buf := buf, ok := true } : SinkPush))
      = s.snkOut ++ (pushBuffer s s.enc.slot :: bufs).map fun buf => { buf := buf, ok := true } := List.append_assoc ..
  rw [transmitted, hout]
  rfl

/-- From the push numbered ENC_SLOT, the `m + 1` turns that are left hand over the buffers from there to the last one. -/
theorem run_transmitted {turns : List Agent} {acks : List Bool} (m : Nat) {s : State} (hp : s.enc.phase = .transmitting)
    (hslot : s.enc.slot + m = slotCount s + 1) (hs : s.sched = List.replicate (m + 1) .enc ++ turns)
    (ha : s.snkIn = List.replicate (m + 1) true ++ acks) :
    core.run (m + 1) s
      = .next (transmitted turns acks ((List.range' s.enc.slot (m + 1)).map (pushBuffer s)) s) := by
  induction m generalizing s with
  | zero =>
    refine (run_succ_of_step (M := core) (step_encPush_last hp hs ha hslot) 0).trans (congrArg _ ?_)
    simp [transmitted, accepted, encDone, ← hslot]
  | succ m ih =>
    have hnext : (s.enc.slot + 1) + m = slotCount s + 1 := by omega
    calc core.run (m + 2) s = core.run (m + 1) (nextSlot _ _ s) :=
          run_succ_of_step (M := core) (step_encPush_more hp hs ha (by omega)) (m + 1)
      _ = _ := ih (s := nextSlot _ _ s) hp hnext rfl rfl
      _ = _ := congrArg _ (transmitted_nextSlot ..)

/-- The pushes of a run of S slots: the calibration buffer, the slots in order, the calibration buffer (R112, R178). -/
theorem pushBuffers_eq (s : State) : (List.range (slotCount s + 2)).map (pushBuffer s)
    = [s.rom.cal] ++ (List.range (slotCount s)).map (mixSlot s) ++ [s.rom.cal] := by
  have hslots :
      (List.range (slotCount s)).map (fun i => pushBuffer s (i + 1)) = (List.range (slotCount s)).map (mixSlot s) :=
    List.map_congr_left fun i hi => if_pos (List.mem_range.mp hi)
  have hend : pushBuffer s (slotCount s + 1) = s.rom.cal := if_neg (Nat.not_succ_le_self _)
  rw [List.range_succ_eq_map, List.range_succ, List.map_cons, List.map_map, List.map_append]
  exact congrArg (s.rom.cal :: ·) (congrArg₂ (· ++ ·) hslots (congrArg (fun buf => [buf]) hend))

/-- Settles O25: from slot 0 the turns that are left are all S + 2 of the run, and its end releases a waiting HOST. -/
theorem transmissionPushesTheWholeRun : Obligations.TransmissionPushesTheWholeRun := by
  intro s turns acks count hp h0 hs ha
  have hrun := run_transmitted (count + 1) hp (by rw [h0]; exact Nat.zero_add _) hs ha
  rw [h0, ← List.range_eq_range', show count + 1 + 1 = slotCount s + 2 from rfl, pushBuffers_eq] at hrun
  refine ⟨_, hrun, ?_⟩
  unfold transmitted encDone releaseHost
  split
  case isTrue => exact ⟨rfl, rfl, rfl, rfl, rfl, rfl, rfl, rfl, rfl, rfl, rfl, rfl, fun _ => ⟨rfl, rfl, rfl⟩⟩
  case isFalse hw => exact ⟨rfl, rfl, rfl, rfl, rfl, rfl, rfl, rfl, rfl, rfl, rfl, rfl, fun hw' => absurd hw' hw⟩

end Sys2Proof.Machine
end

section
/-! PROOF. The converters (R120 to R126), as host operations and as functions, and the padding loops (R128, R129, R234). -/

namespace Sys2Proof.Machine

/-! ### Operations whose only check is a valid configuration (R324) -/

section
variable {form : Bool} {s : State} (hform : form = true)
include hform

theorem hostOp_needCfg_refused (hc : s.cfgValid = false) (body : State → State) :
    hostOp form [needCfg s] body s = { s with resCode := .notConfigured, resBuf := [] } :=
  hostOp_refused hform (by simp [hc]) (by decide) body s

theorem hostOp_needCfg_done (hc : s.cfgValid = true) (body : State → State) : hostOp form [needCfg s] body s = body s :=
  hostOp_done hform (by simp [hc]) body s

end

/-! ### Strings converted character by character -/

section
variable {α β : Type} {f : α → List β} {m : Nat} (hf : ∀ a, (f a).length = m)
include hf

theorem length_flatMap_of_length_eq (l : List α) : (l.flatMap f).length = m * l.length := by
  induction l with
  | nil => rfl
  | cons a l ih => rw [List.flatMap_cons, List.length_append, hf, ih, List.length_cons, Nat.mul_succ, Nat.add_comm]

/-- Where every element becomes `m`, place `m * j + i` holds element `i` of what element `j` became. -/
theorem getElem?_flatMap_of_length_eq {i : Nat} (hi : i < m) {a : α} :
    ∀ {l : List α} {j : Nat}, l[j]? = some a → (l.flatMap f)[m * j + i]? = (f a)[i]?
  | b :: l, 0, h => by
    obtain rfl : b = a := by simpa using h
    rw [List.flatMap_cons, Nat.mul_zero, Nat.zero_add, List.getElem?_append_left (by rwa [hf])]
  | b :: l, j + 1, h => by
    have ih := getElem?_flatMap_of_length_eq hi (l := l) (j := j) (by simpa using h)
    rw [List.flatMap_cons, List.getElem?_append_right (by rw [hf, Nat.mul_succ]; omega), hf, ← ih]
    congr 1
    rw [Nat.mul_succ]; omega

end

/-! ### Hex digits (R120, R121) -/

/-- The character `c` is a hex digit of value `v`, of either case (R120, R121). -/
def DigitOf (c : Byte) (v : Nat) : Prop :=
  v < 16 ∧ (c = BitVec.ofNat 8 (if v < 10 then 0x30 + v else 0x61 + (v - 10)) ∨
    c = BitVec.ofNat 8 (if v < 10 then 0x30 + v else 0x41 + (v - 10)))

theorem hexVal_of_digitOf {c : Byte} {v : Nat} (h : DigitOf c v) : hexVal c = some (BitVec.ofNat 4 v) := by
  have hchars : ∀ v < 16,
      hexVal (BitVec.ofNat 8 (if v < 10 then 0x30 + v else 0x61 + (v - 10))) = some (BitVec.ofNat 4 v) ∧
      hexVal (BitVec.ofNat 8 (if v < 10 then 0x30 + v else 0x41 + (v - 10))) = some (BitVec.ofNat 4 v) := by decide
  obtain ⟨hv, rfl | rfl⟩ := h
  · exact (hchars v hv).1
  · exact (hchars v hv).2

theorem digitOf_of_hexVal : ∀ (c : Byte), ∀ v ∈ hexVal c, DigitOf c v.toNat := by
  unfold DigitOf; decide

theorem hexVal_isSome_iff {c : Byte} : (hexVal c).isSome = true ↔ ∃ v, DigitOf c v := by
  refine ⟨fun h => ?_, fun ⟨v, h⟩ => by rw [hexVal_of_digitOf h]; rfl⟩
  obtain ⟨v, hv⟩ := Option.isSome_iff_exists.mp h
  exact ⟨v.toNat, digitOf_of_hexVal c v hv⟩

theorem hexDigitChars_getElem? {c : Byte} {v k : Nat} (h : DigitOf c v) (hk : k < 4) :
    (hexDigitChars c)[k]? = some (if v.testBit (3 - k) then 0x31 else 0x30) := by
  have hbits : nibbleBits (BitVec.ofNat 4 v) = [v.testBit 3, v.testBit 2, v.testBit 1, v.testBit 0] := by
    simp only [nibbleBits, BitVec.getLsbD_ofNat]; rfl
  rw [hexDigitChars, hexVal_of_digitOf h, Option.getD_some, hbits]
  interval_cases k <;> rfl

/-! ### HEX2BIN (R120, R121) -/

/-- The string without its sign marker: at most one leading `-` is dropped (R120). -/
def unsigned (str : List Byte) : List Byte := if str.head? = some 0x2D then str.tail else str

/-- The check, said of the string after its sign marker. -/
theorem validHex_eq (str : List Byte) : validHex str =
    if (unsigned str).isEmpty then .error .invalidHexData
    else if (unsigned str).all fun c => (hexVal c).isSome then .ok (unsigned str) else .error .invalidHexData := by
  cases str with
  | nil => rfl
  | cons c rest => simp only [validHex, unsigned, List.head?_cons, List.tail_cons, Option.some.injEq]

theorem hex2bin_of_digits {str : List Byte} (hne : unsigned str ≠ [])
    (hdigits : ∀ c ∈ unsigned str, ∃ v, DigitOf c v) : hex2bin str = .ok ((unsigned str).flatMap hexDigitChars) := by
  have hvalid : validHex str = .ok (unsigned str) := by
    rw [validHex_eq, if_neg (by simpa using hne),
      if_pos (List.all_eq_true.mpr fun c hc => hexVal_isSome_iff.mpr (hdigits c hc))]
  rw [hex2bin, hvalid]

theorem hex2bin_of_not_digits {str : List Byte}
    (h : unsigned str = [] ∨ ∃ c ∈ unsigned str, ∀ v, ¬ DigitOf c v) : hex2bin str = .error .invalidHexData := by
  have hvalid : validHex str = .error .invalidHexData := by
    rw [validHex_eq]
    obtain hnil | ⟨c, hc, hno⟩ := h
    · rw [hnil]; rfl
    · have hall : ¬ ((unsigned str).all fun c => (hexVal c).isSome) = true := fun hall =>
        (hexVal_isSome_iff.mp (List.all_eq_true.mp hall c hc)).elim hno
      rw [if_neg hall, ite_self]
  rw [hex2bin, hvalid]

/-- Settles O7: the answer is `hex2bin` of the string, four characters per digit. -/
theorem hex2binConvertsDigitByDigit : Obligations.Hex2binConvertsDigitByDigit := by
  intro o s hform
  refine ⟨fun hc => congrArg _ (hostOp_needCfg_refused hform hc _), fun hc hbad => ?_, fun hc hne hdigits => ?_⟩
  · refine congrArg _ ((hostOp_needCfg_done hform hc _).trans ?_)
    rw [hex2bin_of_not_digits hbad]; rfl
  · refine ⟨(unsigned o.payload).flatMap hexDigitChars, congrArg _ ((hostOp_needCfg_done hform hc _).trans ?_),
      length_flatMap_of_length_eq hexDigitChars_length _, fun j c v hj hv k hk => ?_⟩
    · rw [hex2bin_of_digits hne hdigits]; rfl
    · exact (getElem?_flatMap_of_length_eq hexDigitChars_length hk hj).trans (hexDigitChars_getElem? hv hk)

/-! ### BSTR2ARR (R122) -/

theorem formBinStr_iff {o : Operands} (hform : formPayload o = true) :
    formBinStr o = true ↔ ∀ c ∈ o.payload, c = 0x30 ∨ c = 0x31 := by
  simp [formBinStr, hform]

/-- Settles O8: what is no bit character breaks the packet's form, and each bit character becomes its byte. -/
theorem bstr2arrConvertsEachCharacter : Obligations.Bstr2arrConvertsEachCharacter := by
  intro o s hform
  refine ⟨fun ⟨c, hc, h0, h1⟩ => ?_, fun hbits hc => ?_, fun hbits hc => ?_⟩
  · have hbad : formBinStr o = false := Bool.eq_false_iff.mpr fun h => ((formBinStr_iff hform).mp h c hc).elim h0 h1
    exact congrArg _ (hostOp_malformed hbad _ _ s)
  · exact congrArg _ (hostOp_needCfg_refused ((formBinStr_iff hform).mpr hbits) hc _)
  · refine ⟨_, congrArg _ (hostOp_needCfg_done ((formBinStr_iff hform).mpr hbits) hc _), by simp [binArrayFromBinStr],
      fun j => ⟨fun hj => ?_, fun hj => ?_⟩⟩ <;> simp [binArrayFromBinStr, hj]

/-! ### BIN2HEX (R123) -/

theorem formBitArray_iff {o : Operands} (hform : formPayload o = true)
    (hbits : ∀ c ∈ o.payload, c = 0x00 ∨ c = 0x01) : formBitArray o = true ↔ o.payload.length % 4 = 0 := by
  have hall : (o.payload.all fun c => c == 0x00 || c == 0x01) = true := by simpa using hbits
  rw [formBitArray, hform, hall, Bool.true_and, Bool.true_and, beq_iff_eq]

/-- The value of bits `4 * j` to `4 * j + 3` of a bit array, the first most significant (R123). -/
def nibbleAt (bits : List Bool) (j : Nat) : Nat :=
  let bit := fun k => (bits.getD (4 * j + k) false).toNat
  8 * bit 0 + 4 * bit 1 + 2 * bit 2 + bit 3

theorem bin2hex_getElem? : ∀ {bits : List Bool} {j : Nat}, j < (bin2hex bits).length →
    (bin2hex bits)[j]? = some (hexDigit (nibbleAt bits j))
  | b0 :: b1 :: b2 :: b3 :: rest, 0, _ => by
    have hvalue : bitsToNat [b0, b1, b2, b3] = 8 * b0.toNat + 4 * b1.toNat + 2 * b2.toNat + b3.toNat := by
      simp only [bitsToNat, List.foldl]; omega
    rw [bin2hex, hvalue]; rfl
  | b0 :: b1 :: b2 :: b3 :: rest, j + 1, h => by
    have hnext : nibbleAt (b0 :: b1 :: b2 :: b3 :: rest) (j + 1) = nibbleAt rest j := rfl
    rw [bin2hex, List.getElem?_cons_succ, hnext]
    exact bin2hex_getElem? (Nat.lt_of_succ_lt_succ h)

/-- A bit of a bit array is the byte that stands for it; beyond the end both read as 0. -/
theorem opBitArray_getD {o : Operands} (hbits : ∀ c ∈ o.payload, c = 0x00 ∨ c = 0x01) (i : Nat) :
    ((opBitArray o).getD i false).toNat = (o.payload.getD i 0).toNat := by
  have hbyte : o.payload.getD i 0 = 0x00 ∨ o.payload.getD i 0 = 0x01 := by
    rcases Nat.lt_or_ge i o.payload.length with hi | hi
    · rw [List.getD_eq_getElem _ _ hi]; exact hbits _ (List.getElem_mem hi)
    · exact .inl (List.getD_eq_default _ _ hi)
  have hmap : (opBitArray o).getD i false = (o.payload.getD i 0 == 0x01) := List.getD_map o.payload 0 (· == 0x01)
  rw [hmap]
  obtain h | h := hbyte <;> rw [h] <;> rfl

/-- Settles O9: the answer is `bin2hex` of the bit array, whose digits are those of its nibbles. -/
theorem bin2hexConvertsEachNibble : Obligations.Bin2hexConvertsEachNibble := by
  intro o s hform hbits
  have hok := formBitArray_iff hform hbits
  refine ⟨fun hlen => congrArg _ (hostOp_malformed (Bool.eq_false_iff.mpr (mt hok.mp hlen)) _ _ s),
    fun hlen hc => congrArg _ (hostOp_needCfg_refused (hok.mpr hlen) hc _), fun hlen hc => ?_⟩
  refine ⟨bin2hex (opBitArray o), congrArg _ (hostOp_needCfg_done (hok.mpr hlen) hc _),
    by rw [bin2hex_length, opBitArray, List.length_map], fun j hj => ?_⟩
  rw [bin2hex_getElem? hj]
  simp only [nibbleAt, opBitArray_getD hbits, hexDigit, apply_ite (BitVec.ofNat 8)]

/-! ### The round trip (R124) -/

/-- Each digit makes the round trip on its own, and comes back in lower case. -/
theorem bin2hex_digitChars {t : List Byte} (h : ∀ c ∈ t, (hexVal c).isSome = true) :
    bin2hex (binArrayFromBinStr (t.flatMap hexDigitChars))
      = t.map fun c => if 0x41 ≤ c.toNat ∧ c.toNat ≤ 0x46 then c + 0x20 else c := by
  induction t with
  | nil => rfl
  | cons c t ih =>
    obtain ⟨hc, ht⟩ := List.forall_mem_cons.mp h
    have hfirst : bin2hex (binArrayFromBinStr ((c :: t).flatMap hexDigitChars))
        = hexDigit (bitsToNat ((hexDigitChars c).map fun d => d == 0x31))
          :: bin2hex (binArrayFromBinStr (t.flatMap hexDigitChars)) := rfl
    rw [hfirst, hexDigit_round c hc, ih ht, List.map_cons]

/-- The ranges of R124 hold digits, and no sign marker. -/
theorem hexVal_isSome_of_range : ∀ c : Byte,
    (0x30 ≤ c.toNat ∧ c.toNat ≤ 0x39) ∨ (0x41 ≤ c.toNat ∧ c.toNat ≤ 0x46) ∨ (0x61 ≤ c.toNat ∧ c.toNat ≤ 0x66) →
    (hexVal c).isSome = true ∧ c ≠ 0x2D := by decide

/-- Settles O10: a string of digits has no sign marker, so all of it is converted. -/
theorem hexRoundTripNormalisesCase : Obligations.HexRoundTripNormalisesCase := by
  intro str hne hrange
  have hchars : ∀ c ∈ str, (hexVal c).isSome = true ∧ c ≠ 0x2D := fun c hc => hexVal_isSome_of_range c (hrange c hc)
  have hall : unsigned str = str := if_neg fun hsign => (hchars _ (List.mem_of_mem_head? hsign)).2 rfl
  refine ⟨str.flatMap hexDigitChars, ?_, bin2hex_digitChars fun c hc => (hchars c hc).1⟩
  have hbin : hex2bin str = .ok ((unsigned str).flatMap hexDigitChars) :=
    hex2bin_of_digits (by rwa [hall]) (by rw [hall]; exact fun c hc => hexVal_isSome_iff.mp (hchars c hc).1)
  rwa [hall] at hbin

/-! ### Bytes and bits (R125, R126) -/

/-- Settles O11: a byte's bits stand at its own eight places; the inverse laws are those of the two functions. -/
theorem bytesAndBitsAreInverse : Obligations.BytesAndBitsAreInverse := by
  refine ⟨fun bs j i b hj hi => ?_, fun bs => ⟨bytes2bits_length bs, bits2bytes_bytes2bits bs⟩, bytes2bits_bits2bytes⟩
  calc (bytes2bits bs)[8 * j + i]? = (byteBits b)[i]? := getElem?_flatMap_of_length_eq byteBits_length hi hj
    _ = some (b.getLsbD (7 - i)) := by simp [byteBits, hi]

/-! ### Padding (R128, R129, R234) -/

/-- Settles O17: each padding loop stops at its first fit. -/
theorem paddingStopsAtTheFirstFit : Obligations.PaddingStopsAtTheFirstFit :=
  ⟨fun bits n k hn => ⟨padBits_eq bits n k hn, fillSlot_eq bits n hn⟩, frmPad_eq, frmPad_small⟩

end Sys2Proof.Machine
end

section
/-! PROOF. The Hamming(8,4) code (R140 to R149): its matrices as equations on the bits of a byte, syndromes over GF(2), the
two host operations, the stream forms. -/

namespace Sys2Proof.Machine

/-! ### Code words (R140, R142, R143) -/

/-- The message in a byte's low four bits, bit 3 first (R92, R143). -/
def messageBits (m : Byte) : List Bool := nibbleBits (m.extractLsb' 0 4)

theorem opMessage_eq (o : Operands) : opMessage o = messageBits o.a := rfl

theorem messageBits_eq (m : Byte) : messageBits m = [m.getLsbD 3, m.getLsbD 2, m.getLsbD 1, m.getLsbD 0] := by
  simp [messageBits, nibbleBits]

/-- The parity equations of R140. -/
theorem fecEncBits_eq : ∀ m0 m1 m2 m3 : Bool, fecEncBits [m0, m1, m2, m3] =
    [m0 ^^ m1 ^^ m3, m0 ^^ m2 ^^ m3, m0, m1 ^^ m2 ^^ m3, m1, m2, m3, m0 ^^ m1 ^^ m2] := by decide

theorem bitsByte_fecEncBits (m : Byte) : bitsByte (fecEncBits (messageBits m)) = codeWord m := by
  rw [messageBits_eq, fecEncBits_eq, bitsByte, codeWord]
  congr 1
  simp only [bitsToNat, List.foldl, Nat.reduceSub]
  omega

theorem byteBits_codeWord (m : Byte) : byteBits (codeWord m) = fecEncBits (messageBits m) := by
  rw [← bitsByte_fecEncBits, messageBits_eq, fecEncBits_eq, byteBits_bitsByte]

/-! ### Received words: syndrome, parity, message, flips (R140, R141, R144, R145) -/

/-- The eight bits of a byte, written out. -/
theorem byteBits_eq (w : Byte) : byteBits w = [w.getLsbD 7, w.getLsbD 6, w.getLsbD 5, w.getLsbD 4, w.getLsbD 3,
    w.getLsbD 2, w.getLsbD 1, w.getLsbD 0] := rfl

theorem syn_byteBits (w : Byte) : syn (byteBits w) = wordSyndrome w := by
  simp [syn, gf2Mul, gf2Component, fecHt, byteBits_eq, wordSyndrome, List.range_succ]

theorem par_byteBits (w : Byte) : par (byteBits w) = wordParity w := by
  simp [par, byteBits_eq, wordParity]

theorem bitsByte_gf2Mul_fecR (w : Byte) : bitsByte (gf2Mul (byteBits w) fecR 4) = wordMessage w := by
  have hbits : gf2Mul (byteBits w) fecR 4 = [w.getLsbD 5, w.getLsbD 3, w.getLsbD 2, w.getLsbD 1] := by
    simp [gf2Mul, gf2Component, fecR, byteBits_eq, List.range_succ]
  rw [hbits, bitsByte, wordMessage]
  congr 1
  simp only [bitsToNat, List.foldl]
  omega

theorem getLsbD_flipWord (w : Byte) {i j : Nat} (hi : i < 8) (hj : j < 8) :
    (flipWord w j).getLsbD (7 - i) = (w.getLsbD (7 - i) ^^ decide (j = i)) := by
  have hplace : 7 - j = 7 - i ↔ j = i := by omega
  have hi7 : 7 - i < 8 := by omega
  rw [flipWord, BitVec.getLsbD_xor, BitVec.getLsbD_ofNat, Nat.testBit_two_pow]
  simp only [hplace, hi7, decide_true, Bool.true_and]

theorem flipAt_byteBits (w : Byte) {j : Nat} (hj : j < 8) : flipAt (byteBits w) j = byteBits (flipWord w j) := by
  refine List.ext_getElem (by simp [flipAt]) fun i hi _ => ?_
  have hi : i < 8 := by simpa [flipAt] using hi
  have hbit := getLsbD_flipWord w hi hj
  by_cases h : j = i <;> simpa [flipAt, byteBits, h] using hbit.symm

theorem flipWord_eq_xor (w : Byte) (j : Nat) : flipWord w j = w ^^^ flipWord 0 j := by simp [flipWord]

theorem flipWord_flipWord (w : Byte) (j : Nat) : flipWord (flipWord w j) j = w := by simp [flipWord]

/-- The syndrome is linear (R141, R144). -/
theorem wordSyndrome_xor (v w : Byte) :
    wordSyndrome (v ^^^ w) = List.zipWith (· ^^ ·) (wordSyndrome v) (wordSyndrome w) := by
  have hcomm : Std.Commutative Bool.xor := ⟨Bool.xor_comm⟩
  simp only [wordSyndrome, BitVec.getLsbD_xor, List.zipWith, List.cons.injEq, and_true]
  refine ⟨?_, ?_, ?_, ?_⟩ <;> ac_rfl

theorem wordSyndrome_xor_eq_zero_iff (v w : Byte) :
    wordSyndrome (v ^^^ w) = [false, false, false, false] ↔ wordSyndrome v = wordSyndrome w := by
  rw [wordSyndrome_xor]
  simp only [wordSyndrome, List.zipWith, List.cons.injEq, ← Bool.bne_eq_xor, bne_eq_false_iff_eq]

/-- The parity is the last syndrome bit (R144), so it is linear too. -/
theorem wordParity_xor (v w : Byte) : wordParity (v ^^^ w) = (wordParity v ^^ wordParity w) :=
  congrArg (·.getD 3 false) (wordSyndrome_xor v w)

/-- Every flip changes the parity. -/
theorem wordParity_flipWord (w : Byte) {j : Nat} (hj : j < 8) : wordParity (flipWord w j) = !wordParity w := by
  have hunit : ∀ j < 8, wordParity (flipWord 0 j) = true := by decide
  rw [flipWord_eq_xor, wordParity_xor, hunit j hj, Bool.xor_true]

/-- The rows of Hᵗ are pairwise distinct (R144). -/
theorem wordSyndrome_flipWord_zero_inj : ∀ i < 8, ∀ j < 8,
    wordSyndrome (flipWord 0 i) = wordSyndrome (flipWord 0 j) → i = j := by decide

/-- Row j of Hᵗ is the syndrome of an error in position j alone (R140). -/
theorem fecHt_getElem : ∀ (j : Nat) (h : j < fecHt.length), fecHt[j] = wordSyndrome (flipWord 0 j) := by decide

/-- The syndromes of words of odd weight are all rows of Hᵗ (R144). -/
theorem wordSyndrome_mem_fecHt {w : Byte} (hodd : wordParity w = true) : wordSyndrome w ∈ fecHt := by
  have hrows : ∀ s0 s1 s2 : Bool, [s0, s1, s2, true] ∈ fecHt := by decide
  have hlast : wordSyndrome w = (wordSyndrome w).take 3 ++ [wordParity w] := rfl
  rw [hlast, hodd]
  exact hrows _ _ _

theorem wordSyndrome_ne_zero_of_odd {w : Byte} (hodd : wordParity w = true) :
    wordSyndrome w ≠ [false, false, false, false] := by
  have hrows : [false, false, false, false] ∉ fecHt := by decide
  exact fun h => hrows (h ▸ wordSyndrome_mem_fecHt hodd)

/-! ### The decoder on a byte (R145) -/

theorem fecDecAnswer_of_syndrome_zero {w : Byte} (hsyn : wordSyndrome w = [false, false, false, false]) :
    fecDecAnswer (byteBits w) = .ok [wordMessage w] := by
  rw [fecDecAnswer, fecDecBits, syn_byteBits, if_pos hsyn, ← bitsByte_gf2Mul_fecR]

/-- A word of odd weight is corrected at the position whose row of Hᵗ is its syndrome. -/
theorem fecDecAnswer_of_odd {w : Byte} (hodd : wordParity w = true) :
    ∃ j < 8, wordSyndrome (flipWord 0 j) = wordSyndrome w ∧
      fecDecAnswer (byteBits w) = .ok [wordMessage (flipWord w j)] := by
  have hj : fecHt.idxOf (wordSyndrome w) < fecHt.length := List.idxOf_lt_length_of_mem (wordSyndrome_mem_fecHt hodd)
  refine ⟨fecHt.idxOf (wordSyndrome w), hj, by rw [← fecHt_getElem _ hj, List.getElem_idxOf], ?_⟩
  rw [fecDecAnswer, fecDecBits, syn_byteBits, if_neg (wordSyndrome_ne_zero_of_odd hodd), par_byteBits, if_pos hodd,
    flipAt_byteBits w hj, ← bitsByte_gf2Mul_fecR]

theorem fecDecAnswer_of_even {w : Byte} (hsyn : wordSyndrome w ≠ [false, false, false, false])
    (heven : wordParity w = false) : fecDecAnswer (byteBits w) = .error .doubleErrorDetected := by
  rw [fecDecAnswer, fecDecBits, syn_byteBits, if_neg hsyn, par_byteBits, if_neg (by simp [heven])]

/-! ### No error, one error, two errors (R146) -/

theorem wordSyndrome_codeWord (m : Byte) : wordSyndrome (codeWord m) = [false, false, false, false] := by
  have hcode : ∀ m0 m1 m2 m3 : Bool, syn (fecEncBits [m0, m1, m2, m3]) = [false, false, false, false] := by decide
  rw [← syn_byteBits, byteBits_codeWord, messageBits_eq, hcode]

theorem wordParity_codeWord (m : Byte) : wordParity (codeWord m) = false :=
  Bool.eq_false_iff.mpr fun hodd => wordSyndrome_ne_zero_of_odd hodd (wordSyndrome_codeWord m)

theorem wordMessage_codeWord {m : Byte} (hm : m.toNat < 16) : wordMessage (codeWord m) = m := by
  have hextract : ∀ m0 m1 m2 m3 : Bool, gf2Mul (fecEncBits [m0, m1, m2, m3]) fecR 4 = [m0, m1, m2, m3] := by decide
  have hpack : ∀ m : Byte, m.toNat < 16 → bitsByte (messageBits m) = m := by decide
  rw [← bitsByte_gf2Mul_fecR, byteBits_codeWord, messageBits_eq, hextract, ← messageBits_eq, hpack m hm]

/-- One flip of a code word leaves the syndrome of that flip. -/
theorem wordSyndrome_flipWord_codeWord (m : Byte) (i : Nat) :
    wordSyndrome (flipWord (codeWord m) i) = wordSyndrome (flipWord 0 i) := by
  rw [flipWord_eq_xor, wordSyndrome_xor, wordSyndrome_codeWord]
  simp [wordSyndrome]

/-- The only flip that corrects a single error is the one that made it. -/
theorem fecDecAnswer_one_flip {m : Byte} (hm : m.toNat < 16) {i : Nat} (hi : i < 8) :
    fecDecAnswer (byteBits (flipWord (codeWord m) i)) = .ok [m] := by
  have hodd : wordParity (flipWord (codeWord m) i) = true := by rw [wordParity_flipWord _ hi, wordParity_codeWord]; rfl
  obtain ⟨j, hj, hsyn, hans⟩ := fecDecAnswer_of_odd hodd
  obtain rfl : j = i :=
    wordSyndrome_flipWord_zero_inj j hj i hi (hsyn.trans (wordSyndrome_flipWord_codeWord m i))
  rw [hans, flipWord_flipWord, wordMessage_codeWord hm]

/-- Two different flips leave the parity even and, their rows of Hᵗ being distinct, a syndrome that is not zero. -/
theorem fecDecAnswer_two_flips (m : Byte) {i j : Nat} (hi : i < 8) (hj : j < 8) (hij : i ≠ j) :
    fecDecAnswer (byteBits (flipWord (flipWord (codeWord m) i) j)) = .error .doubleErrorDetected := by
  refine fecDecAnswer_of_even (fun hzero => hij ?_) ?_
  · rw [flipWord_eq_xor, wordSyndrome_xor_eq_zero_iff, wordSyndrome_flipWord_codeWord] at hzero
    exact wordSyndrome_flipWord_zero_inj i hi j hj hzero
  · rw [wordParity_flipWord _ hj, wordParity_flipWord _ hi, wordParity_codeWord]; rfl

/-! ### The host operations (R143, R145) -/

/-- FEC.DEC in a configured block answers what the decoder makes of its word. -/
theorem exec_fecDec {o : Operands} {s : State} (hform : formByte o = true) (hc : s.cfgValid = true) :
    exec (.fecDec o) s = .next (answer (fecDecAnswer (byteBits o.a)) s) :=
  congrArg _ (hostOp_needCfg_done hform hc _)

/-- Settles O12: the answer is the message times G, which is the word of the parity equations. -/
theorem fecEncAnswersTheCodeWord : Obligations.FecEncAnswersTheCodeWord := by
  intro o s hform
  refine ⟨fun hc => congrArg _ (hostOp_needCfg_refused hform hc _), fun hc => ?_⟩
  refine congrArg _ ((hostOp_needCfg_done hform hc _).trans ?_)
  rw [opMessage_eq, bitsByte_fecEncBits]; rfl

/-- Settles O13: the decoder's three cases by syndrome and parity; an odd word's syndrome is a row of Hᵗ. -/
theorem fecDecCorrectsBySyndrome : Obligations.FecDecCorrectsBySyndrome := by
  intro o s hform
  refine ⟨fun hc => congrArg _ (hostOp_needCfg_refused hform hc _), fun hc hsyn => ?_, fun hc hodd => ?_,
    fun hc hsyn heven => ?_⟩
  · rw [exec_fecDec hform hc, fecDecAnswer_of_syndrome_zero hsyn]; rfl
  · obtain ⟨j, hj, hsyn, hans⟩ := fecDecAnswer_of_odd hodd
    exact ⟨j, hj, hsyn, by rw [exec_fecDec hform hc, hans]; rfl⟩
  · rw [refuses, exec_fecDec hform hc, fecDecAnswer_of_even hsyn heven]; rfl

/-- Settles O14: syndrome and parity are linear, so a flipped code word shows the syndromes of its flips alone. -/
theorem fecCorrectsOneAndDetectsTwo : Obligations.FecCorrectsOneAndDetectsTwo := by
  intro m s hm hc dec
  have hdec : ∀ w : Byte, dec w = .next (answer (fecDecAnswer (byteBits w)) s) := fun w => exec_fecDec rfl hc
  refine ⟨?_, fun i hi => ?_, fun i hi j hj hij => ?_⟩
  · rw [hdec, fecDecAnswer_of_syndrome_zero (wordSyndrome_codeWord m), wordMessage_codeWord hm]; rfl
  · rw [hdec, fecDecAnswer_one_flip hm hi]; rfl
  · rw [hdec, fecDecAnswer_two_flips m hi hj hij]; rfl

/-! ### Streams (R148, R149) -/

/-- A stream that fails still fails behind `k` more groups. -/
theorem fecDecStream_append_eq_none {rest : List Bool} (hrest : fecDecStream rest = none) :
    ∀ {k : Nat} {before : List Bool}, before.length = 8 * k → fecDecStream (before ++ rest) = none
  | 0, before, hlen => by rwa [List.eq_nil_of_length_eq_zero hlen]
  | k + 1, before, hlen => by
    have ih := fecDecStream_append_eq_none hrest (k := k) (before := before.drop 8) (by rw [List.length_drop]; omega)
    rw [← List.take_append_drop 8 before, List.append_assoc,
      fecDecStream_group (by rw [List.length_take]; omega), ih]
    cases fecDecBits (before.take 8) <;> rfl

/-- Settles O15: the inverse laws are those of the stream functions; a failing group fails the stream that starts with it,
and so every stream with whole groups before it. -/
theorem fecStreamsAreInverse : Obligations.FecStreamsAreInverse := by
  refine ⟨fun bits hlen => ⟨fecEncStream_length bits hlen, fecDecStream_fecEncStream bits hlen⟩,
    fun before group after hbefore hgroup _ hbad => ?_⟩
  have hfail : fecDecStream (group ++ after) = none := by rw [fecDecStream_group hgroup, hbad]
  rw [List.append_assoc]
  exact fecDecStream_append_eq_none hfail (k := before.length / 8) (by omega)

end Sys2Proof.Machine
end

section
/-! PROOF. The tone modulator: the host operations that load a payload and start a run (R170 to R176), and the push step
with its three ends (R178 to R180). -/

namespace Sys2Proof.Machine

/-! ### The refusals (R172) -/

theorem needEncIdle_idle {s : State} (h : s.enc.phase = .idle) : needEncIdle s = none := needEncIdle_eq_none.mpr h

theorem needEncIdle_busy {s : State} (h : s.enc.phase = .transmitting) : needEncIdle s = some .busy := by
  simp [needEncIdle, h]

section
variable {i : Instr} {s : State} {form : Bool} {body : State → State}

/-- A well-formed host operation is refused with the first error of its checks. -/
theorem refuses_of_firstError {checks : List (Option ErrCode)} {e : ErrCode}
    (hi : exec i s = .next (hostOp form checks body s)) (hform : form = true) (hc : firstError checks = e) (he : e ≠ .ok) :
    refuses e i s :=
  hi.trans (congrArg _ (hostOp_refused hform hc he body s))

/-- A well-formed operation that loads a payload for the mode `m`: its refusals in their order, else its effect. -/
theorem encLoad_cases {m : Mode} (hform : form = true) (hi : exec i s = .next
      (hostOp form [needCfg s, needRole .standalone s, needMode m s, needEncIdle s] body s)) :
    (s.cfgValid = false → refuses .notConfigured i s) ∧
    (s.cfgValid = true → s.cfg.role ≠ .standalone → refuses .wrongRole i s) ∧
    (s.cfgValid = true → s.cfg.role = .standalone → s.cfg.mode ≠ m → refuses .wrongMode i s) ∧
    (s.cfgValid = true → s.cfg.role = .standalone → s.cfg.mode = m → s.enc.phase = .transmitting →
      refuses .busy i s) ∧
    (s.cfgValid = true → s.cfg.role = .standalone → s.cfg.mode = m → s.enc.phase = .idle →
      exec i s = .next (body s)) := by
  refine ⟨fun hc => ?_, fun hc hr => ?_, fun hc hr hm => ?_, fun hc hr hm hp => ?_, fun hc hr hm hp => ?_⟩
  · exact refuses_of_firstError hi hform (by simp [hc]) (by decide)
  · exact refuses_of_firstError hi hform (by simp [hc, hr]) (by decide)
  · exact refuses_of_firstError hi hform (by simp [hc, hr, hm]) (by decide)
  · exact refuses_of_firstError hi hform (by simp [hc, hr, hm, needEncIdle_busy hp]) (by decide)
  · exact hi.trans (congrArg _ (hostOp_done hform (by simp [hc, hr, hm, needEncIdle_idle hp]) body s))

end

/-! ### ENC.LDHEX and ENC.LDFRM (R170, R171) -/

/-- Settles O21: a string within HEX_MAX has the operation's form, and the effect writes ENC_HEX. -/
theorem encLdhexStoresTheString : Obligations.EncLdhexStoresTheString := by
  intro o s hform hlen
  have hhex : formHex s.params.hexMax o = true := by simp [formHex, hform, hlen]
  exact encLoad_cases (i := .encLdhex o) hhex rfl

/-- Settles O22: the effect is `loadFrame` of what was built, by the two results of the build. -/
theorem encLdfrmStoresTheFrame : Obligations.EncLdfrmStoresTheFrame := by
  intro o s hform built
  obtain ⟨hcfg, hrole, hmode, hbusy, hload⟩ := encLoad_cases (i := .encLdfrm o) (s := s) hform rfl
  refine ⟨hcfg, hrole, hmode, hbusy, fun hc hr hm hp => ⟨fun e he => ?_, fun f hf => ?_⟩⟩
  · exact (hload hc hr hm hp).trans (congrArg (Host.Outcome.next <| loadFrame · s) he)
  · exact (hload hc hr hm hp).trans (congrArg (Host.Outcome.next <| loadFrame · s) hf)

/-! ### ENC.RUN (R173 to R176) -/

/-- The only error of the hex converter (R120). -/
theorem hex2bin_error {str : List Byte} {e : ErrCode} (h : hex2bin str = .error e) : e = .invalidHexData := by
  unfold hex2bin at h
  split at h
  · rename_i hvalid
    cases h; exact validHex_error hvalid
  · cases h

section
variable {c : CfgRegs} {e : EncRegs}

theorem rawBits_noFrame (hm : c.mode = .dataFrame) (hf : e.frm = none) : rawBits c e = .error .noPending := by
  simp [rawBits, hm, hf]

theorem rawBits_hex {bin : List Byte} (hm : c.mode = .simple) (hbin : hex2bin (e.hex.getD []) = .ok bin) :
    rawBits c e = .ok (padBits (binArrayFromBinStr bin) c.nCh (codeFactor c)) := by simp [rawBits, hm, hbin]

theorem rawBits_invalidHex {err : ErrCode} (hm : c.mode = .simple) (herr : hex2bin (e.hex.getD []) = .error err) :
    rawBits c e = .error .invalidHexData := by
  rw [hex2bin_error herr] at herr
  simp [rawBits, hm, herr]

end

section
variable {s : State}

/-- ENC.RUN with something valid pending: the run begins, and HOST waits for its end. -/
theorem hostRun_starts {bits : List Bool} (h : rawBits s.cfg s.enc = .ok bits) :
    hostRun s = { s with
      enc := { s.enc with bits := codeBits s.cfg bits, slot := 0, err := .ok, phase := .transmitting }
      hostWait := true } := by
  simp [hostRun, encStart_ok h]

/-- ENC.RUN with nothing valid pending: the error is recorded, logged and answered. -/
theorem hostRun_fails {e : ErrCode} (h : rawBits s.cfg s.enc = .error e) :
    hostRun s = { s with
      enc := { s.enc with err := e }, lerr := e, evt := s.evt ++ [.logSendFailed e], resCode := e, resBuf := [] } := by
  have he := rawBits_error h
  simp only [hostRun, encStart_error h, if_neg he, setEncErr, lerrAfter_error he]
  rfl

end

/-- Settles O23: what is pending decides `rawBits`, and `rawBits` decides whether the run begins. -/
theorem encRunStartsTheTransmission : Obligations.EncRunStartsTheTransmission := by
  intro o s hform coded starts fails
  refine ⟨fun hc => ?_, fun hc hr => ?_, fun hc hr hp => ?_, fun hc hr hp => ?_⟩
  · exact refuses_of_firstError (i := .encRun o) rfl hform (by simp [hc]) (by decide)
  · exact refuses_of_firstError (i := .encRun o) rfl hform (by simp [hc, hr]) (by decide)
  · exact refuses_of_firstError (i := .encRun o) rfl hform (by simp [hc, hr, needEncIdle_busy hp]) (by decide)
  have hrun : exec (.encRun o) s = .next (hostRun s) :=
    congrArg _ (hostOp_done hform (by simp [hc, hr, needEncIdle_idle hp]) hostRun s)
  have hstarts : ∀ bits, rawBits s.cfg s.enc = .ok bits → starts bits := fun _ h =>
    hrun.trans (congrArg _ (hostRun_starts h))
  have hfails : ∀ e, rawBits s.cfg s.enc = .error e → fails e := fun _ h => hrun.trans (congrArg _ (hostRun_fails h))
  refine ⟨fun hm hnone => ?_, fun str hm hsome => ⟨fun e herr => ?_, fun bin hbin => ?_⟩, fun hm hnone => ?_,
    fun f hm hsome => ?_⟩
  · exact hfails _ (rawBits_invalidHex (err := .invalidHexData) hm (by rw [hnone]; rfl))
  · exact hfails _ (rawBits_invalidHex hm (by rw [hsome]; exact herr))
  · exact hstarts _ (rawBits_hex hm (by rw [hsome]; exact hbin))
  · exact hfails _ (rawBits_noFrame hm hnone)
  · exact hstarts _ (rawBits_frame hm hsome)

/-! ### The push step (R178 to R180) -/

/-- A turn of ENC whose push the sink refused (R180). -/
theorem step_encPush_err {s : State} {turns : List Agent} {acks : List Bool} (hp : s.enc.phase = .transmitting)
    (hs : s.sched = .enc :: turns) (ha : s.snkIn = false :: acks) :
    step s = .next (encFail { s with
      sched := turns, snkIn := acks, snkOut := s.snkOut ++ [{ buf := pushBuffer s s.enc.slot, ok := false }] }) := by
  rw [step_listed hs]
  show Host.Outcome.next (encTurn _) = _
  rw [encTurn, if_pos hp, encPush, snkPush_listed (s := { s with sched := turns }) ha]
  rfl

/-- What a failed run writes: the phase, the error with its two events, and the response of a waiting HOST. -/
theorem encFail_eq (s : State) : encFail s = releaseHost .ioError { s with
    enc := { s.enc with phase := .idle, err := .ioError }, lerr := .ioError
    evt := s.evt ++ [.logIoError true, .logSendFailed .ioError] } := by
  simp [encFail, emit, setEncErr, lerrAfter]

/-- Settles O24: by the sink's answer, and where it accepts by whether the push was the last. -/
theorem encoderPushStep : Obligations.EncoderPushStep := by
  intro s turns ok acks hs hp ha released count buf
  refine ⟨?_, ?_, ?_⟩
  · rintro rfl
    exact (step_encPush_err hp hs ha).trans (congrArg _ (encFail_eq _))
  · rintro rfl hlast
    exact step_encPush_last hp hs ha hlast
  · rintro rfl hmore
    exact step_encPush_more hp hs ha hmore.ne

end Sys2Proof.Machine
end

section
/-! PROOF. The decode cycle of the demodulator (R209 to R214): when it is due, and what decoded bits are appended to. -/

namespace Sys2Proof.Machine

/-! ### When a cycle is due (R209) -/

theorem cycleDue_iff {n : Nat} {raw : List Bool} :
    cycleDue n raw = true ↔ raw ≠ [] ∧ raw.length % n = 0 ∧ raw.length % 16 = 0 := by
  simp [cycleDue, and_assoc]

section
variable {s : State}

theorem decodeCycle_not_due (h : ¬ cycleDue s.cfg.nCh s.dec.raw = true) : decodeCycle s = s := if_neg h

variable (h : cycleDue s.cfg.nCh s.dec.raw = true)
include h

theorem decodeCycle_doubleError (hbits : cycleBits s.cfg s.dec.raw = none) :
    decodeCycle s = emit (.logDecodeError .doubleErrorDetected) { s with dec := discardBuffers s.dec } := by
  simp [decodeCycle, h, hbits]

theorem decodeCycle_decoded {d : List Bool} (hbits : cycleBits s.cfg s.dec.raw = some d) :
    decodeCycle s = { s with
      dec := newData s.params.rxMax s.cfg.mode d (appendMsg s.params.rxMax d { s.dec with raw := [] }) } := by
  simp [decodeCycle, h, hbits]

end

/-! ### Appends within a capacity (R211, R212, R214) -/

section
variable (rxMax : Nat) (d : List Bool) (r : DecRegs)

theorem appendMsg_eq : appendMsg rxMax d r = { r with
    msg := if r.msg.length + d.length ≤ 8 * rxMax then r.msg ++ d else r.msg
    ovf := r.ovf || !decide (r.msg.length + d.length ≤ 8 * rxMax) } := by
  unfold appendMsg; split <;> simp [*]

theorem newDataSimple_eq : newDataSimple rxMax d r = { r with
    rxHex := if r.rxHex.length + (bin2hex d).length ≤ rxMax then r.rxHex ++ bin2hex d else r.rxHex
    ovf := r.ovf || !decide (r.rxHex.length + (bin2hex d).length ≤ rxMax) } := by
  unfold newDataSimple; split <;> simp [*]

end

/-- The bytes up to the first EOT, which is kept; all bytes where there is none (R212). -/
def upToEot (bytes : List Byte) : List Byte :=
  if EOT ∈ bytes then bytes.takeWhile (fun b => b != EOT) ++ [EOT] else bytes

theorem upToEot_eot (bytes : List Byte) : upToEot (EOT :: bytes) = [EOT] := by simp [upToEot]

theorem upToEot_cons {b : Byte} (hb : b ≠ EOT) (bytes : List Byte) : upToEot (b :: bytes) = b :: upToEot bytes := by
  by_cases hmem : EOT ∈ bytes <;> simp [upToEot, hmem, hb, hb.symm]

/-- After an EOT no byte is taken any more. -/
theorem foldl_newByte_of_eot {rxMax : Nat} {r : DecRegs} (he : r.eot = true) :
    ∀ bytes : List Byte, bytes.foldl (newByte rxMax) r = r
  | [] => rfl
  | b :: bytes => by
    have hskip : newByte rxMax r b = r := if_pos he
    rw [List.foldl_cons, hskip, foldl_newByte_of_eot he bytes]

/-- A byte before the EOT is appended if there is room; whether it is the EOT is noted in any case. -/
theorem newByte_eq {r : DecRegs} (he : r.eot = false) (rxMax : Nat) (b : Byte) : newByte rxMax r b = { r with
    rxBytes := r.rxBytes ++ [b].take (rxMax - r.rxBytes.length), eot := decide (b = EOT)
    ovf := r.ovf || decide (rxMax - r.rxBytes.length < 1) } := by
  unfold newByte
  rw [if_neg (by simp [he])]
  split
  · obtain ⟨k, hroom⟩ : ∃ k, rxMax - r.rxBytes.length = k + 1 := Nat.exists_eq_add_one.2 (by omega)
    simp [hroom, beq_eq_decide]
  · have hroom : rxMax - r.rxBytes.length = 0 := by omega
    simp [hroom, beq_eq_decide]

/-- Before an EOT the bytes up to the first one are taken, as far as there is room. -/
theorem foldl_newByte {rxMax : Nat} {bytes : List Byte} {r : DecRegs} (he : r.eot = false) :
    bytes.foldl (newByte rxMax) r = { r with
      rxBytes := r.rxBytes ++ (upToEot bytes).take (rxMax - r.rxBytes.length)
      eot := r.eot || decide (EOT ∈ bytes)
      ovf := r.ovf || decide (rxMax - r.rxBytes.length < (upToEot bytes).length) } := by
  induction bytes generalizing r with
  | nil => simp [upToEot]
  | cons b bytes ih =>
    rw [List.foldl_cons, newByte_eq he]
    by_cases hb : b = EOT
    · rw [foldl_newByte_of_eot (by simpa using hb), hb, upToEot_eot]
      simp [he]
    · rw [ih (by simpa using hb), upToEot_cons hb]
      cases hroom : rxMax - r.rxBytes.length with
      | zero => simp [hroom, he, hb, Ne.symm hb]
      | succ k =>
        have hless : rxMax - (r.rxBytes.length + 1) = k := by omega
        simp [hless, he, hb, Ne.symm hb]

/-- In DataFrame mode the bytes up to the first EOT of the transmission are appended, as far as there is room. -/
theorem newDataFrame_eq (rxMax : Nat) (d : List Bool) (r : DecRegs) :
    newDataFrame rxMax d r = { r with
      rxBytes := r.rxBytes ++
        (if r.eot = true then [] else upToEot (bits2bytes d)).take (rxMax - r.rxBytes.length)
      eot := r.eot || decide (EOT ∈ bits2bytes d)
      ovf := r.ovf || decide (rxMax - r.rxBytes.length <
        (if r.eot = true then [] else upToEot (bits2bytes d)).length) } := by
  cases he : r.eot with
  | true =>
    have hstays : (true || decide (EOT ∈ bits2bytes d)) = r.eot := by simp [he]
    rw [newDataFrame, foldl_newByte_of_eot he, if_pos rfl, hstays]
    simp
  | false => rw [newDataFrame, foldl_newByte he, if_neg (by decide), he]

/-- Settles O33: `cycleDue` says whether the cycle runs, `cycleBits` what it decodes, and the appends go by their
equations. -/
theorem decodeCycleAccumulates : Obligations.DecodeCycleAccumulates := by
  intro s raw due decoded
  refine ⟨fun hdue => ?_, fun hdue hbits => ?_, fun d hdue hbits => ⟨fun hmode => ?_, fun hmode => ?_⟩⟩
  · exact decodeCycle_not_due (mt cycleDue_iff.mp hdue)
  · exact decodeCycle_doubleError (cycleDue_iff.mpr hdue) hbits
  · rw [decodeCycle_decoded (cycleDue_iff.mpr hdue) hbits, hmode, newData, newDataSimple_eq, appendMsg_eq]
  · rw [decodeCycle_decoded (cycleDue_iff.mpr hdue) hbits, hmode, newData, newDataFrame_eq, appendMsg_eq]
    rfl

/-- The decode cycle does not touch OLD. -/
@[simp] theorem decodeCycle_old (s : State) : (decodeCycle s).dec.old = s.dec.old := by
  by_cases hdue : cycleDue s.cfg.nCh s.dec.raw = true
  · cases hbits : cycleBits s.cfg s.dec.raw with
    | none => rw [decodeCycle_doubleError hdue hbits]; rfl
    | some d =>
      rw [decodeCycle_decoded hdue hbits, appendMsg_eq]
      cases s.cfg.mode with
      | simple => rw [newData, newDataSimple_eq]
      | dataFrame => rw [newData, newDataFrame_eq]
  · rw [decodeCycle_not_due hdue]

end Sys2Proof.Machine
end

section
/-! PROOF. Steps 5 to 8 of the per-frame decode (R202 to R208): the conditions of a frame as propositions, the slot's bits, and
the break between two read events. -/

namespace Sys2Proof.Machine

/-! ### The conditions of a frame (R201, R202, R204) -/

theorem newVals_getD (det : List (Option Rat)) (i : Nat) : (newVals det).getD i 0 = (det.getD i none).getD 0 := by
  cases h : det[i]? <;> simp [newVals, h]

theorem anyChanged_iff {n : Nat} {delta : Rat} {det : List (Option Rat)} {old : List Rat} :
    anyChanged n delta (newVals det) old = true ↔ ∃ i < n, delta < |(det.getD i none).getD 0 - oldAt old i| := by
  simp only [anyChanged, changedAt, newVals_getD, List.any_eq_true, List.mem_range, decide_eq_true_eq]

theorem hadZero_iff {n : Nat} {old : List Rat} : hadZero n old = true ↔ ∃ i < n, oldAt old i = 0 := by
  simp [hadZero]

theorem allFound_iff {det : List (Option Rat)} : allFound det = true ↔ ∀ d ∈ det, d ≠ none := by
  simp [allFound, Option.isSome_iff_ne_none]

theorem readEvent_iff {s : State} {det : List (Option Rat)} : readEvent s det = true ↔ allFound det = true ∧
    anyChanged s.cfg.nCh s.rom.deltaF (newVals det) s.dec.old = true ∧ hadZero s.cfg.nCh s.dec.old = true := by
  simp [readEvent, and_assoc]

/-! ### A slot's bits (R207) -/

theorem sliceBit_eq_none {delta low high f : Rat} (hlow : delta < |f - low|) (hhigh : delta < |f - high|) :
    sliceBit delta low high f = none := by
  rw [sliceBit, if_neg hlow.not_ge, if_neg hhigh.not_ge]

theorem sliceBit_low {delta low high f : Rat} (h : |f - low| ≤ delta) : sliceBit delta low high f = some false := if_pos h

theorem sliceBit_high {delta low high f : Rat} (hlow : delta < |f - low|) (hhigh : |f - high| ≤ delta) :
    sliceBit delta low high f = some true := by
  rw [sliceBit, if_neg hlow.not_ge, if_pos hhigh]

/-- Mapping a partial function over a list succeeds where every element has a value. -/
theorem mapM_eq_some_iff {α β : Type} {f : α → Option β} {l : List α} {bs : List β} :
    l.mapM f = some bs ↔ l.map f = bs.map some := by
  induction l generalizing bs with
  | nil => cases bs <;> simp
  | cons a l ih =>
    cases hfa : f a with
    | none => cases bs <;> simp [hfa]
    | some b => cases bs <;> simp [hfa, ih, Option.bind_eq_some_iff, and_comm]

section
variable {s : State} {det : List (Option Rat)}

/-- A slot is read where each channel's value is a bit (R207). -/
theorem sliceSlot_eq_some_iff {bits : List Bool} : sliceSlot s (newVals det) = some bits ↔
    bits.length = s.cfg.nCh ∧ ∀ i < s.cfg.nCh,
      sliceBit s.rom.deltaF (s.rom.low.getD i 0) (s.rom.high.getD i 0) ((det.getD i none).getD 0) = bits[i]? := by
  refine ⟨fun h => ⟨sliceSlot_length h, fun i hi => ?_⟩, fun ⟨hlen, hbits⟩ => ?_⟩
  · have hget := congrArg (·[i]?) (mapM_eq_some_iff.mp h)
    have hbit : i < bits.length := (sliceSlot_length h).symm ▸ hi
    rw [← newVals_getD]
    simpa [hi, hbit] using hget
  · refine mapM_eq_some_iff.mpr (List.ext_getElem (by simp [hlen]) fun i hi _ => ?_)
    have hi : i < s.cfg.nCh := by simpa using hi
    rw [List.getElem_map, List.getElem_map, List.getElem_range, newVals_getD, hbits i hi, List.getElem?_eq_getElem]

/-- A value near neither tone aborts the slot. -/
theorem sliceSlot_aborted {i : Nat} (hi : i < s.cfg.nCh)
    (hlow : s.rom.deltaF < |(det.getD i none).getD 0 - s.rom.low.getD i 0|)
    (hhigh : s.rom.deltaF < |(det.getD i none).getD 0 - s.rom.high.getD i 0|) : sliceSlot s (newVals det) = none := by
  rw [Option.eq_none_iff_forall_ne_some]
  intro bits h
  obtain ⟨hlen, hbits⟩ := sliceSlot_eq_some_iff.mp h
  have hnone := hbits i hi
  rw [sliceBit_eq_none hlow hhigh, eq_comm, List.getElem?_eq_none_iff] at hnone
  omega

/-- Where each value is near a tone, the low one tested first, the slot holds the tones' bits. -/
theorem sliceSlot_bits {bits : List Bool} (hlen : bits.length = s.cfg.nCh)
    (hbits : ∀ i < s.cfg.nCh,
      (|(det.getD i none).getD 0 - s.rom.low.getD i 0| ≤ s.rom.deltaF ∧ bits[i]? = some false) ∨
      (s.rom.deltaF < |(det.getD i none).getD 0 - s.rom.low.getD i 0| ∧
        |(det.getD i none).getD 0 - s.rom.high.getD i 0| ≤ s.rom.deltaF ∧ bits[i]? = some true)) :
    sliceSlot s (newVals det) = some bits := by
  refine sliceSlot_eq_some_iff.mpr ⟨hlen, fun i hi => ?_⟩
  obtain ⟨hlow, hbit⟩ | ⟨hlow, hhigh, hbit⟩ := hbits i hi
  · rw [sliceBit_low hlow, hbit]
  · rw [sliceBit_high hlow hhigh, hbit]

/-! ### OLD and the slot (R203, R204, R208) -/

theorem updateOld_changed (h : anyChanged s.cfg.nCh s.rom.deltaF (newVals det) s.dec.old = true) :
    updateOld s det = { s with dec := { s.dec with old := newVals det } } := if_pos h

theorem updateOld_unchanged (h : ¬ anyChanged s.cfg.nCh s.rom.deltaF (newVals det) s.dec.old = true) :
    updateOld s det = s := if_neg h

theorem trackFrame_noEvent (h : ¬ readEvent s det = true) : trackFrame det s = updateOld s det := if_neg h

theorem trackFrame_event (h : readEvent s det = true) :
    trackFrame det s =
      acceptSlot (sliceSlot s (newVals det)) { s with dec := { s.dec with old := newVals det } } := by
  rw [trackFrame, if_pos h, updateOld_changed (readEvent_iff.mp h).2.1]

end

/-- Settles O31: without a change nothing is read or replaced, without a read event OLD alone is replaced, and at a read event
the slot is aborted or joins RAW. -/
theorem frameTrackingFollowsTheSteps : Obligations.FrameTrackingFollowsTheSteps := by
  intro s det _ new changed found zero replaced
  have hevent : readEvent s det = true ↔ found ∧ changed ∧ zero := by
    rw [readEvent_iff, allFound_iff, anyChanged_iff, hadZero_iff]
  refine ⟨fun hch => ?_, fun hch hno => ?_, fun hch hf hz hfar => ?_, fun bits hch hf hz hlen hbits => ?_⟩
  · rw [trackFrame_noEvent fun he => hch (hevent.mp he).2.1, updateOld_unchanged (mt anyChanged_iff.mp hch)]
  · rw [trackFrame_noEvent fun he => hno ⟨(hevent.mp he).1, (hevent.mp he).2.2⟩, updateOld_changed (anyChanged_iff.mpr hch)]
    rfl
  · obtain ⟨i, hi, hlow, hhigh⟩ := hfar
    rw [trackFrame_event (hevent.mpr ⟨hf, hch, hz⟩), sliceSlot_aborted hi hlow hhigh]
    rfl
  · rw [trackFrame_event (hevent.mpr ⟨hf, hch, hz⟩), sliceSlot_bits hlen hbits]
    rfl

/-! ### The break between two read events (R205) -/

/-- Reading a slot does not touch OLD. -/
@[simp] theorem trackFrame_old (det : List (Option Rat)) (s : State) :
    (trackFrame det s).dec.old = (updateOld s det).dec.old := by
  unfold trackFrame
  split
  · cases sliceSlot s (newVals det) <;> simp [acceptSlot]
  · rfl

theorem trackFrame_cfg (det : List (Option Rat)) (s : State) : (trackFrame det s).cfg = s.cfg :=
  (extends_trackFrame det s).config.2.1

/-- The detected values of a frame with every channel found hold no zero (R201). -/
theorem hadZero_newVals {n : Nat} {det : List (Option Rat)} (hlen : det.length = n) (hz : some 0 ∉ det) (hf : none ∉ det) :
    ¬ hadZero n (newVals det) = true := by
  rw [hadZero_iff]
  rintro ⟨i, hi, h0⟩
  rw [oldAt, newVals_getD, List.getD_eq_getElem _ _ (hlen ▸ hi)] at h0
  cases hd : det[i] with
  | none => exact hf (hd ▸ List.getElem_mem _)
  | some v =>
    have hv : v = 0 := by simpa [hd] using h0
    exact hz (hv ▸ hd ▸ List.getElem_mem _)

/-- OLD holds no zero once a frame in which every channel was found has been followed, if it changed a channel or OLD held
none before. -/
theorem hadZero_trackFrame {s : State} {det : List (Option Rat)} (hlen : det.length = s.cfg.nCh) (hz : some 0 ∉ det)
    (hf : none ∉ det) (h : ¬ hadZero s.cfg.nCh s.dec.old = true ∨
      anyChanged s.cfg.nCh s.rom.deltaF (newVals det) s.dec.old = true) :
    ¬ hadZero (trackFrame det s).cfg.nCh (trackFrame det s).dec.old = true := by
  rw [trackFrame_cfg, trackFrame_old]
  by_cases hch : anyChanged s.cfg.nCh s.rom.deltaF (newVals det) s.dec.old = true
  · rw [updateOld_changed hch]; exact hadZero_newVals hlen hz hf
  · rw [updateOld_unchanged hch]; exact h.resolve_right hch

/-- Frames in which every channel was found leave OLD without a zero. -/
theorem hadZero_foldl_trackFrame {dets : List (List (Option Rat))} {s : State} (h : ¬ hadZero s.cfg.nCh s.dec.old = true)
    (hdets : ∀ det ∈ dets, det.length = s.cfg.nCh ∧ some 0 ∉ det ∧ none ∉ det) :
    let t := dets.foldl (fun t det => trackFrame det t) s
    ¬ hadZero t.cfg.nCh t.dec.old = true := by
  induction dets generalizing s with
  | nil => exact h
  | cons det dets ih =>
    obtain ⟨⟨hlen, hz, hf⟩, hrest⟩ := List.forall_mem_cons.mp hdets
    exact ih (hadZero_trackFrame hlen hz hf (.inl h)) (by rwa [trackFrame_cfg])

/-- Settles O32: the first read event leaves OLD without a zero, frames with every channel found keep it so, and the last
read event needs one. -/
theorem readEventsNeedABreak : Obligations.ReadEventsNeedABreak := by
  intro s first last between hdets hfirst hlast
  by_contra hbreak
  obtain ⟨hfound, hchanged, -⟩ := readEvent_iff.mp hfirst
  obtain ⟨⟨hlen, hz⟩, hbetween⟩ := List.forall_mem_cons.mp hdets
  have hf : none ∉ first := fun h => allFound_iff.mp hfound none h rfl
  have hold := hadZero_trackFrame hlen hz hf (.inr hchanged)
  refine hadZero_foldl_trackFrame hold (fun det hdet => ?_) (readEvent_iff.mp hlast).2.2
  rw [trackFrame_cfg]
  exact ⟨(hbetween det hdet).1, (hbetween det hdet).2, fun h => hbreak ⟨det, hdet, h⟩⟩

end Sys2Proof.Machine
end

section
/-! PROOF. The demodulator's host operations (R190, R191, R216, R217) and the two steps of its loop (R193 to R201, R213,
R215). -/

namespace Sys2Proof.Machine

/-! ### The host operations (R190, R191, R216, R217) -/

theorem needDecoder_missing {s : State} (h : s.cfg.nfftValid = false ∨ s.cfg.thrValid = false) :
    needDecoder s = some .decoderUnavailable := by
  obtain h | h := h <;> simp [needDecoder, h]

theorem needDecDead_alive {s : State} (h : s.dec.alive = true) : needDecDead s = some .busy := by simp [needDecDead, h]

/-- Settles O27: each refusal is the first error of the checks, and the effects are `startDecoder` and `stopDecoder`. -/
theorem decStartAndStop : Obligations.DecStartAndStop := by
  intro o s hform
  refine ⟨fun hc => ⟨?_, ?_⟩, fun hc hr => ⟨?_, ?_⟩, fun hc hr => ?_, fun hc hr hmissing => ?_,
    fun hc hr hn ht ha => ?_, fun hc hr hn ht ha => ?_⟩
  · exact refuses_of_firstError (i := .decStart o) rfl hform (by simp [hc]) (by decide)
  · exact refuses_of_firstError (i := .decStop o) rfl hform (by simp [hc]) (by decide)
  · exact refuses_of_firstError (i := .decStart o) rfl hform (by simp [hc, hr]) (by decide)
  · exact refuses_of_firstError (i := .decStop o) rfl hform (by simp [hc, hr]) (by decide)
  · exact congrArg _ (hostOp_done hform (by simp [hc, hr]) _ s)
  · exact refuses_of_firstError (i := .decStart o) rfl hform (by simp [hc, hr, needDecoder_missing hmissing]) (by decide)
  · exact refuses_of_firstError (i := .decStart o) rfl hform
      (by simp [hc, hr, needDecoder_eq_none.mpr ⟨hn, ht⟩, needDecDead_alive ha]) (by decide)
  · exact congrArg _ (hostOp_done hform
      (by simp [hc, hr, needDecoder_eq_none.mpr ⟨hn, ht⟩, needDecDead_eq_none.mpr ha]) _ s)

/-- The status byte as a number (R99). -/
theorem rdfrmStatus_eq (s : State) : rdfrmStatus s =
    BitVec.ofNat 8 (s.dec.eot.toNat + 2 * (decide (s.hslot = some .sourceError)).toNat) := by
  rw [rdfrmStatus, beq_eq_decide]
  cases s.dec.eot <;> cases decide (s.hslot = some .sourceError) <;> rfl

/-- Settles O28: each refusal is the first error of the checks, and the effects answer the buffers. -/
theorem decReadOuts : Obligations.DecReadOuts := by
  intro o s hform
  refine ⟨fun hc => ⟨?_, ?_⟩, fun hc hm => ?_, fun hc hm => ?_, fun hc hr => ?_, fun hc hr hm => ?_,
    fun hc hr hm => ?_⟩
  · exact refuses_of_firstError (i := .decRdhex o) rfl hform (by simp [hc]) (by decide)
  · exact refuses_of_firstError (i := .decRdfrm o) rfl hform (by simp [hc]) (by decide)
  · exact refuses_of_firstError (i := .decRdhex o) rfl hform (by simp [hc, hm]) (by decide)
  · exact congrArg _ (hostOp_done hform (by simp [hc, hm]) _ s)
  · exact refuses_of_firstError (i := .decRdfrm o) rfl hform (by simp [hc, hr]) (by decide)
  · exact refuses_of_firstError (i := .decRdfrm o) rfl hform (by simp [hc, hr, hm]) (by decide)
  · rw [← rdfrmStatus_eq]
    exact congrArg _ (hostOp_done hform (by simp [hc, hr, hm]) _ s)

/-! ### The turns of DEC (R192, R193, R195) -/

section
variable {s : State} {turns : List Agent} (hs : s.sched = .dec :: turns) (ha : s.dec.alive = true)
include hs ha

theorem step_decTop (hp : s.dec.phase = .top) : step s = .next (decTop { s with sched := turns }) := by
  simp [step_listed hs, agentTurn, decTurn, ha, hp]

theorem step_decBody (hp : s.dec.phase = .haveFrame) : step s = .next (decBody { s with sched := turns }) := by
  simp [step_listed hs, agentTurn, decTurn, ha, hp]

end

section
variable {s : State}

theorem decTop_stopped (h : s.dec.run = false) : decTop s = { s with dec := { s.dec with alive := false } } := if_pos h

theorem decTop_pulled (h : s.dec.run = true) {r : SrcReply} {u : State} (hpull : srcPull s = (r, u)) :
    decTop s = decPulled r u := by simp [decTop, h, hpull]

/-- Without an end of transmission the loop goes back to its top. -/
theorem bodyEnd_continues (h : ¬ (s.cfg.mode = .dataFrame ∧ s.dec.eot = true)) : bodyEnd s = backToTop s := if_neg h

theorem bodyEnd_ends (h : s.cfg.mode = .dataFrame ∧ s.dec.eot = true) : bodyEnd s = decEot (backToTop s) := if_pos h

end

/-- Settles O29: by whether the loop was told to stop, and by the source's reply. -/
theorem decoderTopStep : Obligations.DecoderTopStep := by
  intro s turns hs ha hp
  let u : State := { s with sched := turns }
  have hstep : step s = .next (decTop u) := step_decTop hs ha hp
  refine ⟨fun hrun => ?_, fun samples more hrun hsrc hlen => ?_, fun r more hrun hsrc hr => ?_⟩
  · exact hstep.trans (congrArg _ (decTop_stopped (s := u) hrun))
  · exact hstep.trans (congrArg _ (decTop_pulled (s := u) hrun (srcPull_ok hsrc hlen)))
  · exact hstep.trans (congrArg _ (decTop_pulled (s := u) hrun (srcPull_err hsrc hr)))

/-! ### The peak of a window (R201) -/

/-- `peak` is the least of the greatest values of `p` on lo..hi. -/
structure LeastPeak (p : Nat → Rat) (lo hi peak : Nat) : Prop where
  inside : lo ≤ peak ∧ peak ≤ hi
  greatest : ∀ m, lo ≤ m → m ≤ hi → p m ≤ p peak
  least : ∀ m, lo ≤ m → m < peak → p m < p peak

theorem peakBin_leastPeak (p : Nat → Rat) (lo count : Nat) : LeastPeak p lo (lo + count) (peakBin p lo count) := by
  induction count with
  | zero =>
    refine ⟨⟨le_rfl, le_rfl⟩, fun m hlo hhi => ?_, fun m hlo hlt => absurd hlt hlo.not_gt⟩
    rw [le_antisymm hhi hlo]; exact le_rfl
  | succ count ih =>
    obtain ⟨⟨hlo, hhi⟩, hgreatest, hleast⟩ := ih
    rw [peakBin]
    split
    · rename_i hnew
      refine ⟨⟨by omega, le_rfl⟩, fun m hm hm' => ?_, fun m hm hm' => ?_⟩
      · obtain hold | rfl := Nat.le_succ_iff.mp hm'
        · exact (hgreatest m hm hold).trans hnew.le
        · exact le_rfl
      · exact (hgreatest m hm (Nat.lt_succ_iff.mp hm')).trans_lt hnew
    · rename_i hkept
      refine ⟨⟨hlo, by omega⟩, fun m hm hm' => ?_, hleast⟩
      obtain hold | rfl := Nat.le_succ_iff.mp hm'
      · exact hgreatest m hm hold
      · exact not_lt.mp hkept

/-- What a channel detects, by the peak of its window. -/
theorem detectChannel_eq {p : Nat → Rat} (threshold delta : Rat) {lo hi : Nat} (h : lo ≤ hi) :
    ∃ peak, LeastPeak p lo hi peak ∧
      detectChannel p threshold delta lo hi = if threshold < p peak then some (peak * delta) else none := by
  have hpeak := peakBin_leastPeak p lo (hi - lo)
  rw [Nat.add_sub_cancel' h] at hpeak
  exact ⟨_, hpeak, rfl⟩

theorem detectFrame_getElem? {c : CfgRegs} {rom : Rom} (frame : List Sample) {i lo hi : Nat} (hi' : i < c.nCh)
    (hlo : rom.kLo[i]? = some lo) (hhi : rom.kHi[i]? = some hi) :
    (detectFrame c rom frame)[i]? = some (detectChannel (binPower c rom frame) c.threshold rom.deltaF lo hi) := by
  simp [detectFrame, hi', hlo, hhi]

/-! ### Silence (R219) -/

theorem binPower_silence {c : CfgRegs} {rom : Rom} {frame : List Sample} (h : ∀ k < rom.nDec, frame.getD k 0 = 0) (m : Nat) :
    binPower c rom frame m = 0 := by
  have hx : windowed rom frame = fun _ => 0 := by
    funext k
    unfold windowed
    split
    · rename_i hk
      rw [h k hk]; simp
    · rfl
  simp [binPower, dftRe, dftIm, hx]

/-- Silence is found in no channel. -/
theorem detectFrame_silence {c : CfgRegs} {rom : Rom} {frame : List Sample} (h : ∀ k < rom.nDec, frame.getD k 0 = 0)
    (hthr : 0 ≤ c.threshold) : detectFrame c rom frame = List.replicate c.nCh none := by
  have hnone : ∀ lo hi, detectChannel (binPower c rom frame) c.threshold rom.deltaF lo hi = none := fun lo hi => by
    rw [detectChannel, binPower_silence h, if_neg hthr.not_gt]
  simp [detectFrame, hnone]

/-- A frame with a channel not found is no read event (R204). -/
theorem readEvent_of_missing {s : State} {det : List (Option Rat)} (h : none ∈ det) : readEvent s det = false :=
  Bool.eq_false_of_not_eq_true fun he => allFound_iff.mp (readEvent_iff.mp he).1 none h rfl

/-! ### The loop-body step (R195) -/

/-- Settles O30: the values are those of `detectFrame`, and the end of the step is decided by mode and EOT_FLAG. -/
theorem decoderBodyStep : Obligations.DecoderBodyStep := by
  intro s turns h hc hv hs ha hp x re im power
  have hn := h.nCh_pos hc
  let t := trackFrame (detectFrame s.cfg s.rom s.dec.frameBuf) { s with sched := turns }
  refine ⟨detectFrame s.cfg s.rom s.dec.frameBuf, Config.unspecifiedFrameBuf t.free, t.free + 1, by simp [detectFrame],
    fun i hi => ?_, fun hsilent hthr => ?_, ?_⟩
  · obtain ⟨lo, hi', hlo, hhi, -, hle, -⟩ := ((channelWindowsLieInsideTheBand s h hc).2 hv).2 i hi
    obtain ⟨peak, ⟨⟨hfirst, hlast⟩, hgreatest, hleast⟩, hdet⟩ :=
      detectChannel_eq (p := binPower s.cfg s.rom s.dec.frameBuf) s.cfg.threshold s.rom.deltaF (Nat.le_of_succ_le hle)
    exact ⟨lo, hi', peak, hlo, hhi, hfirst, hlast, hgreatest, hleast,
      (detectFrame_getElem? _ hi hlo hhi).trans (congrArg some hdet)⟩
  · have hdet := detectFrame_silence hsilent hthr
    refine ⟨hdet, readEvent_of_missing ?_⟩
    rw [hdet]; exact List.mem_replicate.mpr ⟨hn.ne', rfl⟩
  · have hmode : t.cfg.mode = s.cfg.mode := by rw [trackFrame_cfg]
    have hstep : step s = .next (bodyEnd t) := step_decBody hs ha hp
    refine ⟨fun hgo => ?_, fun hm he => ?_⟩
    · rw [hstep, bodyEnd_continues (by rwa [hmode])]
      rfl
    · rw [hstep, bodyEnd_ends ⟨hmode.trans hm, he⟩]
      rfl

end Sys2Proof.Machine
end

section
/-! PROOF. The Frame codec (R230 to R249): what FRM.BUILD and FRM.PARSE answer, the parser row by row, and the parse of a
built Frame. -/

namespace Sys2Proof.Machine

/-! ### FRM.BUILD (R230 to R232) -/

section
variable (n : Nat) (addr : Byte)

theorem frmBuild_noCommand (data : Option (List Byte)) : frmBuild n addr none data = .error .missingCommand := rfl

theorem frmBuild_noData {data : Option (List Byte)} (h : data = none ∨ data = some []) :
    frmBuild n addr (some STX) data = .error .missingData := by
  obtain rfl | rfl := h <;> rfl

theorem frmBuild_dataTooLarge {data : List Byte} (h : 127 < data.length) :
    frmBuild n addr (some STX) (some data) = .error .dataTooLarge := by
  have hne : data ≠ [] := List.ne_nil_of_length_pos (by omega)
  simp [frmBuild, hne, h]

theorem frmBuild_data {data : List Byte} (hne : data ≠ []) (h : data.length ≤ 127) :
    frmBuild n addr (some STX) (some data) = .ok (dataFrame n addr data) := by
  simp [frmBuild, hne, h]

theorem frmBuild_command {cmd : Byte} (h : cmd ≠ STX) (data : Option (List Byte)) :
    frmBuild n addr (some cmd) data = .ok (cmdFrame addr cmd) := if_neg h

end

section
variable {o : Operands} {s : State} (hform : formCmdData o = true) (hc : s.cfgValid = true)
include hform hc

theorem exec_frmBuild : exec (.frmBuild o) s = .next (answer (buildAnswer s.cfg.nCh o) s) :=
  congrArg _ (hostOp_needCfg_done hform hc _)

theorem refuses_frmBuild {e : ErrCode} (h : frmBuild s.cfg.nCh o.a (opCmd o) (opData o) = .error e) :
    refuses e (.frmBuild o) s := by
  rw [refuses, exec_frmBuild hform hc, buildAnswer, h]; rfl

theorem exec_frmBuild_built {f : Frame} (h : frmBuild s.cfg.nCh o.a (opCmd o) (opData o) = .ok f) :
    exec (.frmBuild o) s = .next { s with resCode := .ok, resBuf := frmSerialize f } := by
  rw [exec_frmBuild hform hc, buildAnswer, h]; rfl

end

theorem opCmd_present {o : Operands} (h : opCV o = true) : opCmd o = some o.b := if_pos h

theorem opData_present {o : Operands} (h : opDV o = true) : opData o = some o.payload := if_pos h

/-- The data operand that R231 counts as no data. -/
theorem opData_missing {o : Operands} (h : opDV o = false ∨ o.payload = []) : opData o = none ∨ opData o = some [] := by
  cases hdv : opDV o with
  | false => exact .inl (by simp [opData, hdv])
  | true =>
    have hnil : o.payload = [] := h.resolve_left (by simp [hdv])
    exact .inr (by rw [opData_present hdv, hnil])

/-- Settles O16: each clause is a case of `frmBuild`, with the operands that it reads. -/
theorem frmBuildAnswersTheWireBytes : Obligations.FrmBuildAnswersTheWireBytes := by
  intro o s hform
  refine ⟨fun hc => congrArg _ (hostOp_needCfg_refused hform hc _), fun hc hcv => ?_, fun hc hcv hstx hno => ?_,
    fun hc hcv hstx hdv hlong => ?_, fun hc hcv hstx hdv hne hlen => ?_, fun hc hcv hcmd => ?_⟩
  · refine refuses_frmBuild hform hc ?_
    rw [opCmd, hcv]; exact frmBuild_noCommand _ _ _
  · refine refuses_frmBuild hform hc ?_
    rw [opCmd_present hcv, hstx]; exact frmBuild_noData _ _ (opData_missing hno)
  · refine refuses_frmBuild hform hc ?_
    rw [opCmd_present hcv, hstx, opData_present hdv]; exact frmBuild_dataTooLarge _ _ hlong
  · intro d
    refine ⟨lengthByte (d.length + 6), lengthByte_of_lt,
      exec_frmBuild_built hform hc (f := dataFrame s.cfg.nCh o.a o.payload) ?_⟩
    rw [opCmd_present hcv, hstx, opData_present hdv]; exact frmBuild_data _ _ hne hlen
  · refine exec_frmBuild_built hform hc (f := cmdFrame o.a o.b) ?_
    rw [opCmd_present hcv]; exact frmBuild_command _ _ hcmd _

/-! ### FRM.PARSE (R240, R99) -/

/-- Settles O18: the answer is `parseRecord`, its length byte `lengthByte`. -/
theorem frmParseAnswersTheRecord : Obligations.FrmParseAnswersTheRecord := by
  refine ⟨lengthByte, fun k => lengthByte_of_lt, fun o s hform =>
    ⟨fun hc => congrArg _ (hostOp_needCfg_refused hform hc _), fun hc => ?_⟩⟩
  intro r
  have hexec : exec (.frmParse o) s = .next (answer (.ok (parseRecord r)) s) :=
    congrArg _ (hostOp_needCfg_done hform hc _)
  rw [hexec]
  obtain ⟨_ | ⟨a, c, _ | d, sum⟩, pr, ac⟩ := r <;> rfl

/-! ### The rows of the parser (R247) -/

/-- The check of a device's address, the device without one accepting every Frame (R243). -/
theorem checkAddress_eq (a : Byte) (dev : Option Byte) : checkAddress a dev =
    if dev = none then .ok else if a = 0xFF then .broadcast else if dev = some a then .ok else .otherRecipient := by
  cases dev with
  | none => rfl
  | some d =>
    have hown : a = d ↔ some d = some a := by rw [Option.some_inj, eq_comm]
    rw [if_neg (Option.some_ne_none d)]
    exact if_congr Iff.rfl rfl (if_congr hown rfl rfl)

/-- The address check that is reported before the address is read (R241). -/
theorem earlyCheck_eq (dev : Option Byte) :
    (if dev.isNone then .ok else .otherRecipient : AddrCheck) = if dev = none then .ok else .otherRecipient := by
  cases dev <;> rfl

section
variable (n : Nat) (dev : Option Byte)

theorem frmParse_short {bs : List Byte} (h : bs.length < 5) :
    frmParse bs n dev = (none, .incorrectFrameLength, if dev.isNone then .ok else .otherRecipient) := if_pos h

theorem frmParse_noStart {b0 : Byte} {rest : List Byte} (hl : 4 ≤ rest.length) (h0 : b0 ≠ SOH) :
    frmParse (b0 :: rest) n dev = (none, .startByteNotFound, if dev.isNone then .ok else .otherRecipient) := by
  match rest, hl with
  | addr :: cmd :: rest, hl =>
    simp only [List.length_cons] at hl
    simp [frmParse, h0, show ¬ rest.length + 3 < 5 by omega]

theorem frmParse_otherRecipient {addr : Byte} {rest : List Byte} (hl : 3 ≤ rest.length)
    (hcheck : checkAddress addr dev = .otherRecipient) :
    frmParse (SOH :: addr :: rest) n dev = (none, .otherRecipient, .otherRecipient) := by
  match rest, hl with
  | cmd :: rest, hl =>
    simp only [List.length_cons] at hl
    simp [frmParse, hcheck, show ¬ rest.length + 3 < 5 by omega]

variable {dev} {addr : Byte} (hcheck : checkAddress addr dev ≠ .otherRecipient)
include hcheck

theorem frmParse_longCommand {cmd : Byte} {rest : List Byte} (hcmd : cmd ≠ STX) (hl : 2 < rest.length) :
    frmParse (SOH :: addr :: cmd :: rest) n dev = (none, .incorrectFrameLength, checkAddress addr dev) := by
  rw [frmParse_body n hl.le hcheck, parseBody, if_neg hcmd, if_neg]
  simp only [List.length_cons]; omega

theorem frmParse_command {cmd : Byte} (sum last : Byte) (hcmd : cmd ≠ STX) :
    frmParse [SOH, addr, cmd, sum, last] n dev
      = if sum = 0x05 then (some (cmdFrame addr cmd), .parsingOk, checkAddress addr dev)
        else (none, .checksumIncorrect, checkAddress addr dev) := by
  rw [frmParse_body n (by simp) hcheck, parseBody, if_neg hcmd, if_pos (by simp), rebuildFrame,
    frmBuild_command _ _ hcmd]
  simp [cmdFrame, wireChecksum, eq_comm]

theorem frmParse_noEtx {rest : List Byte} (hl : 2 ≤ rest.length) (hetx : ETX ∉ rest) :
    frmParse (SOH :: addr :: STX :: rest) n dev = (none, .frameBuildError, checkAddress addr dev) := by
  rw [frmParse_body n hl hcheck, parseBody, if_pos rfl, dataSpan_none hetx]

/-- The data of an STX Frame is what stands before the first ETX, wherever the Frame ends (R245). -/
theorem frmParse_stx {data rest : List Byte} (hl : 2 ≤ (data ++ ETX :: rest).length) (hetx : ETX ∉ data) :
    frmParse (SOH :: addr :: STX :: (data ++ ETX :: rest)) n dev
      = rebuildFrame n (SOH :: addr :: STX :: (data ++ ETX :: rest)) addr STX (some data) (checkAddress addr dev) := by
  rw [frmParse_body n hl hcheck, parseBody, if_pos rfl, dataSpan_split data rest hetx]

end

/-- The rebuild of an STX Frame fails where the build does, and else compares checksums (R246). -/
theorem rebuildFrame_stx (n : Nat) (bs : List Byte) (addr : Byte) (data : List Byte) (ac : AddrCheck) :
    rebuildFrame n bs addr STX (some data) ac =
      if data = [] ∨ 127 < data.length then (none, .frameBuildError, ac)
      else if (dataFrame n addr data).checksum = wireChecksum bs then (some (dataFrame n addr data), .parsingOk, ac)
      else (none, .checksumIncorrect, ac) := by
  split
  · rename_i hbad
    obtain rfl | hlong := hbad
    · rfl
    · rw [rebuildFrame, frmBuild_dataTooLarge n addr hlong]
  · rename_i hgood
    obtain ⟨hne, hlen⟩ := not_or.mp hgood
    rw [rebuildFrame, frmBuild_data n addr hne (not_lt.mp hlen)]

theorem getElem?_eq_some_iff_wireChecksum {bs : List Byte} (h : 2 ≤ bs.length) (x : Byte) :
    bs[bs.length - 2]? = some x ↔ x = wireChecksum bs := by
  have hi : bs.length - 2 < bs.length := by omega
  rw [wireChecksum, List.getD_eq_getElem _ _ hi, List.getElem?_eq_getElem hi, Option.some_inj, eq_comm]

/-- Settles O19: a lemma for each row, and for the last one the rebuild of the data before the first ETX. -/
theorem frmParseFollowsTheTable : Obligations.FrmParseFollowsTheTable := by
  refine ⟨lengthByte, fun k => lengthByte_of_lt, fun n dev => ?_⟩
  intro early check
  have hearly : early = if dev.isNone then .ok else .otherRecipient := (earlyCheck_eq dev).symm
  have hcheck : check = fun a => checkAddress a dev := funext fun a => (checkAddress_eq a dev).symm
  clear_value early check
  subst hearly hcheck
  refine ⟨fun bs => frmParse_short n dev, fun b0 rest => frmParse_noStart n dev,
    fun a rest => frmParse_otherRecipient n dev, fun a cmd rest ha => frmParse_longCommand n ha,
    fun a cmd sum last ha => frmParse_command n ha sum last, fun a rest ha hl hetx => frmParse_noEtx n ha hl hetx,
    fun a data rest ha hl hetx => ?_⟩
  intro bs d
  have hbs : 2 ≤ bs.length := by simp only [bs, List.length_cons]; omega
  simp only [getElem?_eq_some_iff_wireChecksum hbs]
  exact (frmParse_stx n ha hl hetx).trans (rebuildFrame_stx ..)

/-! ### Parsing a built Frame (R249) -/

theorem wireChecksum_append_pair (bs : List Byte) (sum last : Byte) : wireChecksum (bs ++ [sum, last]) = sum := by
  simp [wireChecksum]

/-- Checksums that a byte can carry differ with the lengths (R235). -/
theorem ofNat_checksum_ne {k m : Nat} (h : k < m) (hm : m < 256) : BitVec.ofNat 8 k ≠ BitVec.ofNat 8 m := by
  intro heq
  have := congrArg BitVec.toNat heq
  simp only [BitVec.toNat_ofNat] at this
  omega

/-- An ETX inside the data ends the span early: the rebuilt Frame has no data, or a smaller checksum (R249). -/
theorem frmParse_dataFrame_etx {k : Nat} {addr : Byte} {data : List Byte} {dev : Option Byte} (hk : k ≤ 4)
    (hlen : data.length ≤ 127) (hetx : ETX ∈ data) (hdev : checkAddress addr dev ≠ .otherRecipient) :
    frmParse (frmSerialize (dataFrame (2 ^ k) addr data)) (2 ^ k) dev =
      (none, if data.head? = some ETX then .frameBuildError else .checksumIncorrect, checkAddress addr dev) := by
  obtain ⟨front, back, rfl, hfront⟩ := List.eq_append_cons_of_mem hetx
  let sum : Byte := BitVec.ofNat 8 ((front ++ ETX :: back).length + 6)
  let wire := SOH :: addr :: STX :: (front ++ ETX :: (back ++ [ETX, sum, EOT]))
  have hwire : frmSerialize (dataFrame (2 ^ k) addr (front ++ ETX :: back)) = wire := by
    simp [dataFrame_small addr hk hlen, frmSerialize, wire, sum]
  have hsum : wireChecksum wire = sum := by
    simpa [wire] using wireChecksum_append_pair (SOH :: addr :: STX :: (front ++ ETX :: (back ++ [ETX]))) sum EOT
  rw [hwire, frmParse_stx _ hdev (by simp; omega) hfront, rebuildFrame_stx, hsum]
  cases front with
  | nil => rfl
  | cons b front =>
    have hb : b ≠ ETX := fun h => hfront (h ▸ List.mem_cons_self)
    have hshort : (b :: front).length ≤ 127 := by simp at hlen ⊢; omega
    have hne : (dataFrame (2 ^ k) addr (b :: front)).checksum ≠ sum := by
      rw [dataFrame_small addr hk hshort]
      exact ofNat_checksum_ne (by simp) (by simp at hlen ⊢; omega)
    rw [if_neg (by simpa using hshort), if_neg hne]
    simp [hb]

/-- Settles O20: a built Frame is the `dataFrame` or the `cmdFrame`, whose parse is known with and without an ETX. -/
theorem parseInvertsBuild : Obligations.ParseInvertsBuild := by
  intro k addr hk
  refine ⟨fun data hne hlen => ⟨dataFrame (2 ^ k) addr data, frmBuild_data _ _ hne hlen, ?_, fun hetx => ⟨?_, ?_⟩,
    fun hetx => ?_⟩, fun cmd hcmd => ⟨cmdFrame addr cmd, frmBuild_command _ _ hcmd none, ?_⟩⟩
  · rw [dataFrame_small addr hk hlen]
  · exact frmParse_dataFrame hk hne hlen hetx (by simp [checkAddress])
  · have hself : checkAddress addr (some addr) = if addr = BROADCAST then .broadcast else .ok := by simp [checkAddress]
    rw [frmParse_dataFrame hk hne hlen hetx (by rw [hself]; split <;> decide), hself]
  · exact frmParse_dataFrame_etx hk hlen hetx (by simp [checkAddress])
  · exact frmParse_cmdFrame _ hcmd (by simp [checkAddress])

end Sys2Proof.Machine
end

section
/-! PROOF. The host operations of the transports: M.SEND, M.SENDBC, M.IDLE, M.STOP, M.SETTO (R261 to R265), S.START and
S.STOP (R282, R283). -/

namespace Sys2Proof.Machine

/-! ### The refusals (R324) -/

/-- How the operation `i` of the role `r` with the effect `t` ends in the state `s`: its refusals in their order, else the
effect. -/
structure RoleOp (r : Role) (i : Instr) (s t : State) : Prop where
  notConfigured : s.cfgValid = false → refuses .notConfigured i s
  wrongRole : s.cfgValid = true → s.cfg.role ≠ r → refuses .wrongRole i s
  done : s.cfgValid = true → s.cfg.role = r → exec i s = .next t

section
variable {i : Instr} {s : State} {form : Bool}

theorem roleOp_of_exec {r : Role} {body : State → State} (hform : form = true)
    (hi : exec i s = .next (hostOp form [needCfg s, needRole r s] body s)) : RoleOp r i s (body s) where
  notConfigured := fun hc => refuses_of_firstError hi hform (by simp [hc]) (by decide)
  wrongRole := fun hc hr => refuses_of_firstError hi hform (by simp [hc, hr]) (by decide)
  done := fun hc hr => hi.trans (congrArg _ (hostOp_done hform (by simp [hc, hr]) body s))

theorem needMasterFree_busy (h : s.mst.pend ≠ none ∨ s.mst.state ≠ .idle ∨ s.mst.stopReq = true) :
    needMasterFree s = some .busy := by
  refine if_neg ?_
  rintro ⟨hpend, hstate, hstop⟩
  simp [hpend, hstate, hstop] at h

/-- A well-formed operation that queues an action: its refusals in their order, else the action is pending. -/
theorem queueAction_cases {act : Action} (hform : form = true)
    (hi : exec i s = .next (hostOp form [needCfg s, needRole .master s, needMasterFree s] (queueAction act) s)) :
    (s.cfgValid = false → refuses .notConfigured i s) ∧
    (s.cfgValid = true → s.cfg.role ≠ .master → refuses .wrongRole i s) ∧
    (s.cfgValid = true → s.cfg.role = .master → (s.mst.pend ≠ none ∨ s.mst.state ≠ .idle ∨ s.mst.stopReq = true) →
      refuses .busy i s) ∧
    (s.cfgValid = true → s.cfg.role = .master → s.mst.pend = none → s.mst.state = .idle → s.mst.stopReq = false →
      exec i s = .next (queueAction act s)) := by
  refine ⟨fun hc => ?_, fun hc hr => ?_, fun hc hr hbusy => ?_, fun hc hr hpend hstate hstop => ?_⟩
  · exact refuses_of_firstError hi hform (by simp [hc]) (by decide)
  · exact refuses_of_firstError hi hform (by simp [hc, hr]) (by decide)
  · exact refuses_of_firstError hi hform (by simp [hc, hr, needMasterFree_busy hbusy]) (by decide)
  · have hfree : needMasterFree s = none := needMasterFree_eq_none.mpr ⟨hpend, hstate, hstop⟩
    exact hi.trans (congrArg _ (hostOp_done hform (by simp [hc, hr, hfree]) _ s))

end

/-! ### The operations -/

/-- Settles O35: both operations queue their action; M.SEND's is a broadcast exactly when it goes to the address 0xFF. -/
theorem masterSendsQueueOneAction : Obligations.MasterSendsQueueOneAction := by
  rintro i o s act cmd data (⟨rfl, hform, rfl⟩ | ⟨rfl, hform, rfl⟩)
  · rw [← beq_eq_decide]
    exact queueAction_cases (i := .mSend o) hform rfl
  · exact queueAction_cases (i := .mSendbc o) hform rfl

/-- Four big-endian bytes as one word (R12, R264). -/
theorem ofNat_beNat_four (b3 b2 b1 b0 : Byte) : BitVec.ofNat 32 (beNat [b3, b2, b1, b0]) = b3 ++ b2 ++ b1 ++ b0 := by
  apply BitVec.eq_of_toNat_eq
  have append (a : Nat) (b : Byte) : a <<< 8 ||| b.toNat = 256 * a + b.toNat := by
    rw [← Nat.shiftLeft_add_eq_or_of_lt b.isLt, Nat.shiftLeft_eq, Nat.mul_comm]
  simp only [BitVec.toNat_append, append, BitVec.toNat_ofNat, beNat, List.foldl]
  omega

/-- Settles O36: each is an operation of the master; the timeout is the word of the four payload bytes. -/
theorem masterControlOperations : Obligations.MasterControlOperations := by
  intro o s
  have idle (hform : formPlain o = true) := roleOp_of_exec (i := .mIdle o) (s := s) hform rfl
  have stop (hform : formPlain o = true) := roleOp_of_exec (i := .mStop o) (s := s) hform rfl
  refine ⟨fun hform hc => ⟨(idle hform).notConfigured hc, (stop hform).notConfigured hc⟩,
    fun hform hc hr => ⟨(idle hform).wrongRole hc hr, (stop hform).wrongRole hc hr⟩,
    fun hform hc hr => ⟨?_, (stop hform).done hc hr⟩, fun hform hlen => ?_, fun b3 b2 b1 b0 hform hpayload => ?_⟩
  · rw [(idle hform).done hc hr, masterIdle]
    simp only [decide_eq_true_eq, apply_ite (fun b : Byte => [b])]
    rfl
  · exact congrArg _ (hostOp_malformed (by simp [formTimeout, hlen]) _ _ s)
  · have htimeout : formTimeout o = true := by simp [formTimeout, hform, hpayload]
    have setto := roleOp_of_exec (i := .mSetto o) (s := s) htimeout rfl
    rw [← ofNat_beNat_four, ← hpayload]
    exact ⟨setto.notConfigured, setto.wrongRole, setto.done⟩

/-- Settles O44: each is an operation of the slave. -/
theorem slaveControlOperations : Obligations.SlaveControlOperations := by
  intro o s hform
  have start := roleOp_of_exec (i := .sStart o) (s := s) hform rfl
  have stop := roleOp_of_exec (i := .sStop o) (s := s) hform rfl
  exact ⟨fun hc => ⟨start.notConfigured hc, stop.notConfigured hc⟩,
    fun hc hr => ⟨start.wrongRole hc hr, stop.wrongRole hc hr⟩, fun hc hr => ⟨start.done hc hr, stop.done hc hr⟩⟩

end Sys2Proof.Machine
end

section
/-! PROOF. The guards of the master (R266) and its steps (R267 to R276): one lemma says which step a turn takes. -/

namespace Sys2Proof.Machine

/-! ### Which step is enabled (R266) -/

section
variable {s : State}

/-- A guard that holds is the first that does: each excludes those before it. -/
theorem mEnabled_of_guard {k : MStep} (h : mGuard s k = true) : mEnabled s = some k := by
  cases k <;> simp only [mGuard, Bool.and_eq_true, decide_eq_true_eq] at h
  case m1 | m2 | m3 | m4 | m5 | m6 | m7 | m9 => simp [mEnabled, mGuard, h]
  case m8 =>
    obtain ⟨⟨hstate, htmo, hslot, hstop⟩, hlate⟩ := h
    simp [mEnabled, mGuard, hstate, htmo, hslot, hstop, hlate]

theorem mEnabled_eq_none (h : ∀ k, mGuard s k = false) : mEnabled s = none := by
  simp [mEnabled, h]

variable (hc : s.cfgValid = true) (hr : s.cfg.role = .master)
include hc hr

theorem masterTurn_of_guard {k : MStep} (h : mGuard s k = true) : masterTurn s = mRun k s := by
  rw [masterTurn, if_pos (isMaster_iff.mpr ⟨hc, hr⟩), mEnabled_of_guard h]

theorem masterTurn_waits (h : ∀ k, mGuard s k = false) : masterTurn s = .next s := by
  rw [masterTurn, if_pos (isMaster_iff.mpr ⟨hc, hr⟩), mEnabled_eq_none h]

end

/-- Settles O37: two guards that hold are both the first. -/
theorem masterStepsAreExclusive : Obligations.MasterStepsAreExclusive := by
  intro s hc hr
  refine ⟨fun j k hj hk => ?_, fun k => masterTurn_of_guard hc hr, masterTurn_waits hc hr⟩
  exact Option.some_inj.mp ((mEnabled_of_guard hj).symm.trans (mEnabled_of_guard hk))

/-! ### The retry (R275) -/

/-- The saturating count of the retries as a number. -/
theorem nextRetries_eq (r : BitVec 32) : nextRetries r = BitVec.ofNat 32 (min (r.toNat + 1) (2 ^ 32 - 1)) := by
  unfold nextRetries
  split
  · subst r; rfl
  · rename_i hr
    have hlt : r.toNat + 1 ≤ 2 ^ 32 - 1 := by
      have : r.toNat ≠ 2 ^ 32 - 1 := fun h => hr (BitVec.eq_of_toNat_eq h)
      have := r.isLt
      omega
    rw [min_eq_left hlt, BitVec.ofNat_add, BitVec.ofNat_toNat, BitVec.setWidth_eq]
    rfl

theorem mRetry_eq (s : State) : mRetry s =
    let more := BitVec.ofNat 32 (min (s.mst.retries.toNat + 1) (2 ^ 32 - 1))
    { s with mst := { s.mst with retries := more, state := .sending }, evt := s.evt ++ [.logRetry more] } := by
  rw [mRetry, nextRetries_eq]; rfl

/-! ### The transmission (R267, R268, R276) -/

section
variable {s : State}

theorem m4_eq {act : Action} (h : s.mst.last = some act) :
    m4 s = mTransmit (frmBuild s.cfg.nCh act.addr act.cmd act.data) s := by simp [m4, h]

/-- A build error ends the send; it is no None, so LERR takes it (log 13). -/
theorem mTransmit_error {e : ErrCode} (he : e ≠ .ok) : mTransmit (.error e) s = { s with
    mst := { s.mst with err := e, state := .idle }, lerr := e, evt := s.evt ++ [.logSendFailed e] } := by
  simp only [mTransmit, setMErr, lerrAfter_error he]; rfl

/-- A Frame is coded into ENC_BITS, and the master waits for its transmission. -/
theorem mTransmit_frame (hm : s.cfg.mode = .dataFrame) (f : Frame) : mTransmit (.ok f) s = { s with
    enc := { s.enc with
      frm := some f, bits := codeBits s.cfg (bytes2bits (frmSerialize f)), slot := 0, err := .ok, phase := .transmitting }
    mst := { s.mst with txWait := true } } := by
  have hraw : rawBits s.cfg { s.enc with frm := some f } = .ok (bytes2bits (frmSerialize f)) := rawBits_frame hm rfl
  simp only [mTransmit, encStart_ok (s := { s with enc := { s.enc with frm := some f } }) hraw]

end

/-- Settles O38: the guard of each clause names its step. -/
theorem masterPicksUpAndTransmits : Obligations.MasterPicksUpAndTransmits := by
  intro s hc hr hm
  have turn {k : MStep} : mGuard s k = true → agentTurn .master s = mRun k s := masterTurn_of_guard hc hr
  refine ⟨fun hs hstop => turn (k := .m1) (by simp [mGuard, hs, hstop]), fun act hs hstop hpend => ?_,
    fun hs htx hstop => turn (k := .m3) (by simp [mGuard, hs, htx, hstop]), fun act hs htx hstop hlast => ?_⟩
  · rw [turn (k := .m2) (by simp [mGuard, hs, hstop, hpend]), ← hpend]
    rfl
  · intro built
    have hturn : agentTurn .master s = .next (mTransmit built s) :=
      (turn (k := .m4) (by simp [mGuard, hs, htx, hstop])).trans (congrArg _ (m4_eq hlast))
    refine ⟨fun e he => ?_, fun f hf => ?_⟩
    · rw [hturn, he, mTransmit_error (frmBuild_error he)]
    · rw [hturn, hf, mTransmit_frame hm f]
      rfl

/-! ### The end of the transmission (R269, R270) -/

section
variable {s : State}

theorem m5_sinkError (h : s.enc.err = .ioError) : m5 s = mRetry { s with mst := { s.mst with txWait := false } } := if_pos h

theorem m5_sent {act : Action} (h : s.enc.err ≠ .ioError) (hlast : s.mst.last = some act) :
    m5 s = mSent act { s with mst := { s.mst with txWait := false } } := by simp [m5, h, hlast]

theorem mSent_broadcast {act : Action} (h : act.bc = true) : mSent act s = { s with
    mst := { s.mst with state := .idle }, evt := s.evt ++ [.logFrameSent act.addr act.cmd] } := if_pos h

/-- A unicast starts the decoder from clean and takes the time. -/
theorem mSent_unicast {act : Action} (h : act.bc = false) : mSent act s = { startDecoder s with
    mst := { s.mst with t0 := s.now, tmo := false, state := .awaitingResponse }
    evt := s.evt ++ [.logFrameSent act.addr act.cmd] } := if_neg (by simp [h])

end

/-- Settles O39: the step is m5; the sink's error decides first, then whether the action is a broadcast. -/
theorem masterEndsItsTransmission : Obligations.MasterEndsItsTransmission := by
  intro s act hc hr hlast hs htx hi more
  have hturn : agentTurn .master s = .next (m5 s) :=
    masterTurn_of_guard hc hr (k := .m5) (by simp [mGuard, hs, htx, hi])
  refine ⟨fun herr => ?_, fun herr hbc => ?_, fun herr hbc => ?_⟩
  · rw [hturn, m5_sinkError herr, mRetry_eq, ← hs]
  · rw [hturn, m5_sent herr hlast, mSent_broadcast hbc]
  · rw [hturn, m5_sent herr hlast, mSent_unicast hbc]
    rfl

/-! ### The join barrier (R272 to R274, R276) -/

/-- Settles O42: m7 and m8 both begin the join, m9 ends it, and between them no guard holds. -/
theorem masterTimesOutThroughTheJoin : Obligations.MasterTimesOutThroughTheJoin := by
  intro s hc hr hs more late
  have turn {k : MStep} : mGuard s k = true → agentTurn .master s = mRun k s := masterTurn_of_guard hc hr
  have waits : (∀ k, mGuard s k = false) → agentTurn .master s = .next s := masterTurn_waits hc hr
  refine ⟨fun htmo hslot hjoin => ?_, fun htmo hslot hstop hlate => ?_, fun htmo ha => ?_, fun htmo ha hstop => ?_,
    fun htmo ha hstop => ?_⟩
  · cases hstop : s.mst.stopReq with
    | true => exact turn (k := .m7) (by simp [mGuard, hs, htmo, hslot, hstop])
    | false =>
      have hlate : timeoutElapsed s = true := decide_eq_true (hjoin.resolve_left (by simp [hstop]))
      exact turn (k := .m8) (by simp [mGuard, hs, htmo, hslot, hstop, hlate])
  · have hearly : timeoutElapsed s = false := decide_eq_false hlate
    exact waits fun k => by cases k <;> simp [mGuard, hs, htmo, hslot, hstop, hearly]
  · exact waits fun k => by cases k <;> simp [mGuard, hs, htmo, ha]
  · exact (turn (k := .m9) (by simp [mGuard, hs, htmo, ha])).trans (congrArg _ (if_pos hstop))
  · have hretry : m9 s = mRetry { s with
        hslot := none, mst := { s.mst with tmo := false }, evt := s.evt ++ [.onTransmissionTimedOut] } :=
      if_neg (by simp [hstop])
    rw [turn (k := .m9) (by simp [mGuard, hs, htmo, ha]), mRun, hretry, mRetry_eq]
    simp [more]

end Sys2Proof.Machine
end

section
/-! PROOF. What the transports do with a result in the handoff slot: bytes that are no Frame, and the instruction a received
Frame stands for (R113, R271, R287). -/

namespace Sys2Proof.Machine

/-! ### The parser's verdict on a Frame (R240, R243) -/

section
variable {addr dev : Byte}

/-- A Frame for the device or for all: the address check is Ok or Broadcast. -/
theorem frameVerdict_mine (h : addr = 0xFF ∨ addr = dev) :
    frameVerdict addr dev = (.parsingOk, if addr = 0xFF then .broadcast else .ok) := by
  have hcheck : checkAddress addr (some dev) = if addr = 0xFF then .broadcast else .ok := by
    rw [checkAddress_eq, if_neg (Option.some_ne_none dev)]
    by_cases hb : addr = 0xFF
    · rw [if_pos hb, if_pos hb]
    · rw [if_neg hb, if_neg hb, if_pos (congrArg some (h.resolve_left hb).symm)]
  have hmine : checkAddress addr (some dev) ≠ .otherRecipient := by rw [hcheck]; split <;> decide
  rw [frameVerdict, if_neg hmine, hcheck]

theorem frameVerdict_other (hb : addr ≠ 0xFF) (h : addr ≠ dev) :
    frameVerdict addr dev = (.otherRecipient, .otherRecipient) :=
  if_pos ((if_neg hb).trans (if_neg h))

end

theorem decodeFrame_eq_error_iff {n : Nat} {dev : Option Byte} {bs : List Byte} {r : ParserResult × AddrCheck} :
    decodeFrame n dev bs = .error r ↔ frmParse bs n dev = (none, r) := by
  unfold decodeFrame
  split <;> rename_i hparse <;> simp [hparse]

/-! ### The master (R271) -/

section
variable {s : State} {addr : Byte} (accept : State → State) (callback : Event) (hc : s.cfgValid = true)
  (hr : s.cfg.role = .master)
include hc hr

theorem receive_master_mine (h : addr = 0xFF ∨ addr = MASTER_ADDR) : receive addr accept callback s
    = accept (emit (.logParseResult .parsingOk (if addr = 0xFF then .broadcast else .ok)) s) := by
  rw [receive, if_pos (isMaster_iff.mpr ⟨hc, hr⟩), mReceive, frameVerdict_mine h]
  exact if_pos rfl

theorem receive_master_other (hb : addr ≠ 0xFF) (hz : addr ≠ MASTER_ADDR) : receive addr accept callback s
    = mRetry (emit (.logParseResult .otherRecipient .otherRecipient) s) := by
  rw [receive, if_pos (isMaster_iff.mpr ⟨hc, hr⟩), mReceive, frameVerdict_other hb hz]
  rfl

end

/-- Settles O40: the verdict is reported, and an accepted Frame is an ACK, a NAK or a retry by its instruction. -/
theorem masterActsOnReceivedFrames : Obligations.MasterActsOnReceivedFrames := by
  intro s addr cmd data hc hr _ _ _ more retried check
  refine ⟨fun hmine => ?_, fun hz hb i hi => ?_⟩
  · have received (accept : State → State) (callback : Event) :
        receive addr accept callback s = accept (emit (.logParseResult .parsingOk check) s) :=
      receive_master_mine accept callback hc hr hmine.symm
    simp only [exec, execAck, execNak, execStx, execCmdOther, received, mRetry_eq]
    simp [mConfirm, emit, retried, more]
  · have hi' : exec i s = .next (mRetry (emit (.logParseResult .otherRecipient .otherRecipient) s)) := by
      simp only [List.mem_cons, List.not_mem_nil, or_false] at hi
      obtain rfl | rfl | rfl | rfl := hi <;> exact congrArg _ (receive_master_other _ _ hc hr hb hz)
    rw [hi', mRetry_eq]
    rfl

/-! ### The master's turn with a result in the slot (R271) -/

/-- A master that awaits its response takes the result in the slot. -/
theorem masterTurn_m6 {s : State} (hc : s.cfgValid = true) (hr : s.cfg.role = .master)
    (hs : s.mst.state = .awaitingResponse) (htmo : s.mst.tmo = false) (hslot : s.hslot.isSome = true) :
    masterTurn s = m6 s :=
  masterTurn_of_guard hc hr (k := .m6) (by simp [mGuard, hs, htmo, hslot])

section
variable {s : State} {bs : List Byte}

theorem m6_sourceError (h : s.hslot = some .sourceError) : m6 s = .next (mRetry { s with hslot := none }) := by
  simp [m6, h]

theorem m6_noFrame (h : s.hslot = some (.bytes bs)) {pr : ParserResult} {ac : AddrCheck}
    (hparse : frmParse bs s.cfg.nCh (some MASTER_ADDR) = (none, pr, ac)) :
    m6 s = .next (mRetry (emit (.logParseResult pr ac) { s with hslot := none })) := by
  simp [m6, h, decodeFrame_eq_error_iff.mpr hparse, mNoFrame]

theorem m6_frame (h : s.hslot = some (.bytes bs)) {i : Instr}
    (hdec : decodeFrame s.cfg.nCh (some MASTER_ADDR) bs = .ok i) : m6 s = exec i { s with hslot := none } := by
  simp [m6, h, hdec]

end

/-- Settles O41: the step is m6, and neither a source error nor bytes that do not parse are an instruction. -/
theorem masterRetriesBadReceptions : Obligations.MasterRetriesBadReceptions := by
  intro s r hc hr hs htmo hslot more
  have hturn : agentTurn .master s = m6 s := masterTurn_m6 hc hr hs htmo (by simp [hslot])
  rw [hturn]
  refine ⟨fun hrr => ?_, fun bs pr ac hrr hparse => ?_⟩
  · rw [m6_sourceError (hslot.trans (congrArg some hrr)), mRetry_eq]
  · rw [m6_noFrame (hslot.trans (congrArg some hrr)) hparse, mRetry_eq]
    simp [more]

end Sys2Proof.Machine
end

section
/-! PROOF. The slave: its guards (R285), its steps (R286 to R290), and to whom it owes a reply (R287, R288). -/

namespace Sys2Proof.Machine

/-! ### Which step is enabled (R285) -/

section
variable {s : State}

/-- A guard that holds is the first that does: each excludes those before it, s6 where DEC_RUN has been cleared. -/
theorem sEnabled_of_guard {k : SStep} (h : sGuard s k = true) (hrun : k = .s6 → s.dec.run = false) :
    sEnabled s = some k := by
  cases k <;> simp only [sGuard, decide_eq_true_eq] at h
  case s6 => simp [sEnabled, sGuard, h, hrun]
  all_goals simp [sEnabled, sGuard, h]

theorem sEnabled_eq_none (h : ∀ k, sGuard s k = false) : sEnabled s = none := by
  simp [sEnabled, h]

variable (hc : s.cfgValid = true) (hr : s.cfg.role = .slave)
include hc hr

theorem slaveTurn_of_guard {k : SStep} (h : sGuard s k = true) (hrun : k = .s6 → s.dec.run = false) :
    slaveTurn s = sRun k s := by
  rw [slaveTurn, if_pos (isSlave_iff.mpr ⟨hc, hr⟩), sEnabled_of_guard h hrun]

theorem slaveTurn_waits (h : ∀ k, sGuard s k = false) : slaveTurn s = .next s := by
  rw [slaveTurn, if_pos (isSlave_iff.mpr ⟨hc, hr⟩), sEnabled_eq_none h]

/-- A listening slave with a result in the slot takes it. -/
theorem slaveTurn_s4 (hs : s.slv.state = .receiving) (hslot : s.hslot.isSome = true) : slaveTurn s = s4 s :=
  slaveTurn_of_guard hc hr (k := .s4) (by simp [sGuard, hs, hslot]) nofun

end

/-! ### Listening and replying (R286, R289, R290) -/

section
variable {s : State}

/-- The reply is a command-only Frame to the master, coded into ENC_BITS. -/
theorem s1_reply {c : Byte} (hm : s.cfg.mode = .dataFrame) (h : s.slv.reply = some c) : s1 s = { s with
    enc := { s.enc with
      frm := some (cmdFrame MASTER_ADDR c), bits := codeBits s.cfg (bytes2bits (frmSerialize (cmdFrame MASTER_ADDR c)))
      slot := 0, err := .ok, phase := .transmitting }
    slv := { s.slv with txWait := true } } := by
  have hraw : rawBits s.cfg { s.enc with frm := some (cmdFrame MASTER_ADDR c) }
      = .ok (bytes2bits (frmSerialize (cmdFrame MASTER_ADDR c))) := rawBits_frame hm rfl
  simp only [s1, h, encStart_ok (s := { s with enc := { s.enc with frm := some (cmdFrame MASTER_ADDR c) } }) hraw]

theorem s3_eq (s : State) : s3 s = { s with
    slv := { s.slv with txWait := false, reply := none }
    evt := s.evt ++ if s.enc.err = .ok then [.logFrameSent MASTER_ADDR s.slv.reply] else [] } := by
  unfold s3
  split <;> simp [emit]

end

/-- Settles O45: the guard of each clause names its step, and where the slave waits none holds; DEC_RUN without DEC_ALIVE
being excluded, s5 and s6 exclude each other. -/
theorem slaveListensAndReplies : Obligations.SlaveListensAndReplies := by
  intro s hc hr hm hrun
  have stopped (ha : s.dec.alive = false) : s.dec.run = false :=
    Bool.eq_false_of_not_eq_true fun h => absurd (ha.symm.trans (hrun h)) (by decide)
  have turn {k : SStep} (h : sGuard s k = true) : agentTurn .slave s = sRun k s :=
    slaveTurn_of_guard hc hr h fun hk => by subst hk; exact stopped (of_decide_eq_true h).2.2
  have waits : (∀ k, sGuard s k = false) → agentTurn .slave s = .next s := slaveTurn_waits hc hr
  refine ⟨fun c hs htx hreply _ => ?_, fun hs htx hreply hstart => ?_,
    fun hs htx hi => ?_, fun hs htx hp => ?_, fun hs htx hreply hstop => ?_,
    fun hs hslot hstop hd => turn (k := .s5) (by simp [sGuard, hs, hslot, hstop, hd]),
    fun hs hslot ha => turn (k := .s6) (by simp [sGuard, hs, hslot, ha]), fun hs hslot ha hd => ?_⟩
  · rw [turn (k := .s1) (by simp [sGuard, hs, htx, hreply]), sRun, s1_reply hm hreply]
    rfl
  · exact turn (k := .s2) (by simp [sGuard, hs, htx, hreply, hstart])
  · rw [turn (k := .s3) (by simp [sGuard, hs, htx, hi]), sRun, s3_eq]
    rfl
  · exact waits fun k => by cases k <;> simp [sGuard, hs, htx, hp]
  · exact waits fun k => by cases k <;> simp [sGuard, hs, htx, hreply, hstop]
  · exact waits fun k => by
      cases k
      case s5 => simpa [sGuard, hs, hslot] using fun hstop => hd.resolve_left (by simp [hstop])
      all_goals simp [sGuard, hs, hslot, ha]

/-! ### A received Frame (R287) -/

section
variable {s : State} {addr : Byte} (accept : State → State) (callback : Event) (hc : s.cfgValid = true)
  (hr : s.cfg.role = .slave)
include hc hr

theorem receive_slave : receive addr accept callback s = sReceive addr callback s := by
  rw [receive, if_neg (not_isMaster (by simp [hr])), if_pos (isSlave_iff.mpr ⟨hc, hr⟩)]

/-- A Frame for the slave or for all is delivered, and only the former is answered. -/
theorem receive_slave_mine (h : addr = 0xFF ∨ addr = s.cfg.devAddr) : receive addr accept callback s = { s with
    evt := s.evt ++ [.logParseResult .parsingOk (if addr = 0xFF then .broadcast else .ok), callback]
    slv := { s.slv with state := .idle, reply := if addr = 0xFF then s.slv.reply else some ACK } } := by
  rw [receive_slave accept callback hc hr, sReceive, frameVerdict_mine h]
  by_cases hb : addr = 0xFF <;> simp [hb, emit]

theorem receive_slave_other (hb : addr ≠ 0xFF) (ha : addr ≠ s.cfg.devAddr) : receive addr accept callback s = { s with
    evt := s.evt ++ [.logParseResult .otherRecipient .otherRecipient], slv := { s.slv with state := .idle } } := by
  rw [receive_slave accept callback hc hr, sReceive, frameVerdict_other hb ha]
  simp [sNoFrame, emit]

end

/-- Settles O46: what is delivered is the callback of each instruction. -/
theorem slaveActsOnReceivedFrames : Obligations.SlaveActsOnReceivedFrames := by
  intro s addr cmd data hc hr _ _ _
  refine ⟨fun hmine => ?_, fun hb ha i hi => ?_⟩
  · intro delivered
    have received (accept : State → State) (callback : Event) :
        Host.Outcome.next (receive addr accept callback s) = delivered callback :=
      congrArg _ (receive_slave_mine accept callback hc hr hmine)
    exact ⟨received .., received .., received .., received ..⟩
  · simp only [List.mem_cons, List.not_mem_nil, or_false] at hi
    obtain rfl | rfl | rfl | rfl := hi <;> exact congrArg _ (receive_slave_other _ _ hc hr hb ha)

/-! ### The other results (R287, R288) -/

/-- The parser's address check is Ok for a device only where the bytes begin with SOH and its address; then the result is
not OtherRecipient (R241, R243). -/
theorem frmParse_addressed {n : Nat} {bs : List Byte} {dev : Byte} {f : Option Frame} {pr : ParserResult}
    (h : frmParse bs n (some dev) = (f, pr, .ok)) :
    pr ≠ .otherRecipient ∧ 5 ≤ bs.length ∧ bs[0]? = some 0x01 ∧ bs[1]? = some dev := by
  obtain ⟨pr', -, -, -, hp⟩ | ⟨a, rest, -, -, -, hp⟩ | ⟨a, c, rest, rfl, hl, -, hp⟩ := frmParse_cases bs n (some dev)
  · rw [hp] at h; cases h
  · rw [hp] at h; cases h
  · rw [hp] at h
    have hlen : 5 ≤ (SOH :: a :: c :: rest).length := by simp only [List.length_cons]; omega
    obtain ⟨f', -, -, hb⟩ | ⟨pr', hpr, -, hb⟩ :=
      parseBody_cases n (SOH :: a :: c :: rest) a c rest (checkAddress a (some dev))
    all_goals
      rw [hb] at h
      obtain ⟨rfl, hsnd⟩ := Prod.mk.inj h
      obtain ⟨rfl, hcheck⟩ := Prod.mk.inj hsnd
      obtain rfl := checkAddress_ok hcheck
    · exact ⟨by decide, hlen, rfl, rfl⟩
    · exact ⟨hpr, hlen, rfl, rfl⟩

section
variable {s : State} {bs : List Byte}

theorem s4_sourceError (h : s.hslot = some .sourceError) : s4 s = .next (sSourceError { s with hslot := none }) := by
  simp [s4, h]

/-- Bytes that are no Frame: NAK exactly where the address check was Ok, for then the result is not OtherRecipient. -/
theorem s4_noFrame (h : s.hslot = some (.bytes bs)) {pr : ParserResult} {ac : AddrCheck}
    (hparse : frmParse bs s.cfg.nCh (some s.cfg.devAddr) = (none, pr, ac)) : s4 s = .next { s with
      hslot := none, evt := s.evt ++ [.logParseResult pr ac]
      slv := { s.slv with state := .idle, reply := if ac = .ok then some NAK else s.slv.reply } } := by
  have hnak : (pr ≠ .otherRecipient ∧ ac = .ok) ↔ ac = .ok :=
    and_iff_right_of_imp fun hac => (frmParse_addressed (hac ▸ hparse)).1
  simp only [s4, h, decodeFrame_eq_error_iff.mpr hparse, sNoFrame, hnak]
  rfl

theorem s4_frame (h : s.hslot = some (.bytes bs)) {i : Instr}
    (hdec : decodeFrame s.cfg.nCh (some s.cfg.devAddr) bs = .ok i) : s4 s = exec i { s with hslot := none } := by
  simp [s4, h, hdec]

/-- After a received Frame a slave that owed nothing owes a reply only where the address check was Ok. -/
theorem sReceive_reply {addr : Byte} {callback : Event} (hnone : s.slv.reply = none)
    (h : (sReceive addr callback s).slv.reply ≠ none) : checkAddress addr (some s.cfg.devAddr) = .ok := by
  by_contra hne
  by_cases hother : checkAddress addr (some s.cfg.devAddr) = .otherRecipient
  · exact h (by simp [sReceive, frameVerdict, hother, sNoFrame, hnone])
  · exact h (by simp [sReceive, frameVerdict, hother, hne, hnone])

end

/-- Settles O47: a reply is owed where the address check was Ok, to bytes that are a Frame or to bytes that are none. -/
theorem slaveAnswersOnlyItsAddress : Obligations.SlaveAnswersOnlyItsAddress := by
  intro s r hc hr hs hslot
  have hturn : agentTurn .slave s = s4 s := slaveTurn_s4 hc hr hs (by simp [hslot])
  rw [hturn]
  refine ⟨fun hrr => s4_sourceError (hslot.trans (congrArg some hrr)),
    fun bs pr ac hrr => s4_noFrame (hslot.trans (congrArg some hrr)), fun bs t hrr hnone ht hreply => ?_⟩
  subst hrr
  suffices ∃ f pr, frmParse bs s.cfg.nCh (some s.cfg.devAddr) = (f, pr, .ok) by
    obtain ⟨f, pr, hparse⟩ := this
    exact (frmParse_addressed hparse).2
  cases hdec : decodeFrame s.cfg.nCh (some s.cfg.devAddr) bs with
  | ok i =>
    obtain ⟨f, rfl, hparse, -⟩ := decodeFrame_ok hdec
    obtain ⟨accept, callback, -, hexec⟩ := exec_ctrlOfFrame f { s with hslot := none }
    rw [s4_frame hslot hdec, hexec, receive_slave (s := { s with hslot := none }) accept callback hc hr] at ht
    cases ht
    rw [sReceive_reply (s := { s with hslot := none }) hnone hreply] at hparse
    exact ⟨_, _, hparse⟩
  | error r =>
    obtain ⟨pr, ac⟩ := r
    have hparse := decodeFrame_eq_error_iff.mp hdec
    rw [s4_noFrame hslot hparse] at ht
    cases ht
    have hac : ac = .ok := by_contra fun hne => hreply ((if_neg hne).trans hnone)
    exact ⟨_, _, hac ▸ hparse⟩

/-! ### The step -/

/-- A master that awaits its response, and a listening slave, run the instruction of a Frame in the slot. -/
theorem masterTurn_frame {s : State} {bs : List Byte} {i : Instr} (hc : s.cfgValid = true) (hr : s.cfg.role = .master)
    (hs : s.mst.state = .awaitingResponse) (htmo : s.mst.tmo = false) (hslot : s.hslot = some (.bytes bs))
    (hdec : decodeFrame s.cfg.nCh (some MASTER_ADDR) bs = .ok i) : masterTurn s = exec i { s with hslot := none } :=
  (masterTurn_m6 hc hr hs htmo (by simp [hslot])).trans (m6_frame hslot hdec)

theorem slaveTurn_frame {s : State} {bs : List Byte} {i : Instr} (hc : s.cfgValid = true) (hr : s.cfg.role = .slave)
    (hs : s.slv.state = .receiving) (hslot : s.hslot = some (.bytes bs))
    (hdec : decodeFrame s.cfg.nCh (some s.cfg.devAddr) bs = .ok i) : slaveTurn s = exec i { s with hslot := none } :=
  (slaveTurn_s4 hc hr hs (by simp [hslot])).trans (s4_frame hslot hdec)

/-- Settles O53: the listed turn takes the result and runs what its bytes decode to. -/
theorem stepRunsTheReceivedFrame : Obligations.StepRunsTheReceivedFrame := by
  intro s turns bs i hc hslot
  refine ⟨fun hsched hr hs htmo hdec => ?_, fun hsched hr hs hdec => ?_⟩
  · exact (step_listed hsched).trans (masterTurn_frame (s := { s with sched := turns }) hc hr hs htmo hslot hdec)
  · exact (step_listed hsched).trans (slaveTurn_frame (s := { s with sched := turns }) hc hr hs hslot hdec)

end Sys2Proof.Machine
end

section
/-! PROOF. The retries (R268, R275, R278): only a pick-up and a reset write M_LAST, and a transmission is determined by
M_LAST and the configuration. -/

namespace Sys2Proof.Machine

/-! ### The agents other than MASTER and HOST keep the master's registers -/

@[simp] theorem encStart_mst (s : State) : (encStart s).2.mst = s.mst := by
  cases h : rawBits s.cfg s.enc with
  | ok bits => rw [encStart_ok h]
  | error e => rw [encStart_error h, emit_mst, setEncErr_mst]

@[simp] theorem releaseHost_mst (e : ErrCode) (s : State) : (releaseHost e s).mst = s.mst := by
  unfold releaseHost; split <;> rfl

@[simp] theorem encPushed_mst (ok : Bool) (s : State) : (encPushed ok s).mst = s.mst := by
  unfold encPushed
  split
  · simp [encFail]
  · split
    · simp [encDone]
    · rfl

@[simp] theorem encTurn_mst (s : State) : (encTurn s).mst = s.mst := by
  obtain ⟨more, n, hpush⟩ := snkPush_cases (encBuffer s) s
  unfold encTurn
  split
  · simp [encPush, hpush]
  · rfl

@[simp] theorem clkTurn_mst (s : State) : (clkTurn s).mst = s.mst := by
  unfold clkTurn; split <;> rfl

@[simp] theorem updateOld_mst (s : State) (det : List (Option Rat)) : (updateOld s det).mst = s.mst := by
  obtain ⟨old, hold⟩ := updateOld_eq s det
  rw [hold]

@[simp] theorem decodeCycle_mst (s : State) : (decodeCycle s).mst = s.mst := by
  unfold decodeCycle
  split
  · split <;> rfl
  · rfl

@[simp] theorem acceptSlot_mst (slot : Option (List Bool)) (s : State) : (acceptSlot slot s).mst = s.mst := by
  cases slot with
  | none => rfl
  | some bits => exact decodeCycle_mst _

@[simp] theorem trackFrame_mst (det : List (Option Rat)) (s : State) : (trackFrame det s).mst = s.mst := by
  unfold trackFrame; split <;> simp

@[simp] theorem decTop_mst (s : State) : (decTop s).mst = s.mst := by
  unfold decTop
  split
  · rfl
  · obtain ⟨more, n, hpull, herr | ⟨samples, hok, -⟩⟩ := srcPull_cases s
    · simp only [herr, hpull]; rfl
    · simp only [hok, hpull]; rfl

@[simp] theorem decBody_mst (s : State) : (decBody s).mst = s.mst := by
  simp only [decBody, bodyEnd]
  split <;> exact trackFrame_mst _ s

@[simp] theorem decTurn_mst (s : State) : (decTurn s).mst = s.mst := by
  unfold decTurn
  split
  · split <;> simp
  · rfl

/-! ### M_LAST under the instructions (R278) -/

/-- From `s` to `t` the action in flight is kept, or there was a reset. -/
def ActionKept (s t : State) : Prop := t.mst.last = s.mst.last ∨ AtReset t

theorem actionKept_hostOp {form : Bool} {checks : List (Option ErrCode)} {body : State → State} {s : State}
    (h : ActionKept s (body s)) : ActionKept s (hostOp form checks body s) :=
  hostOp_keeps (fun _ => .inl rfl) fun _ _ => h

@[simp] theorem answer_mst (r : Except ErrCode (List Byte)) (s : State) : (answer r s).mst = s.mst := by
  cases r <;> rfl

@[simp] theorem loadFrame_mst (r : Except ErrCode Frame) (s : State) : (loadFrame r s).mst = s.mst := by
  cases r <;> rfl

@[simp] theorem hostRun_mst (s : State) : (hostRun s).mst = s.mst := by
  simp only [hostRun]; split <;> exact encStart_mst s

/-- A received Frame ends an attempt, and leaves the action to the retry. -/
theorem receive_last (addr : Byte) {accept : State → State} (ha : ∀ u, (accept u).mst.last = u.mst.last)
    (callback : Event) (s : State) : (receive addr accept callback s).mst.last = s.mst.last := by
  unfold receive
  split
  · simp only [mReceive]
    split
    · exact ha _
    · rfl
  · split
    · simp only [sReceive]; split <;> rfl
    · rfl

/-- No instruction but RST writes M_LAST: M.SEND queues in M_PEND. -/
theorem actionKept_exec {i : Instr} {s t : State} (h : exec i s = .next t) : ActionKept s t := by
  cases i <;> cases h
  case rst => exact actionKept_hostOp (.inr (atReset_resetRegs s))
  case cfg | rdst | encLdhex | decStart | decStop | decRdhex | decRdfrm | mSend | mSendbc | mIdle | mStop | mSetto | sStart
      | sStop =>
    exact actionKept_hostOp (.inl rfl)
  case hex2bin | bstr2arr | bin2hex | fecEnc | fecDec | frmBuild | frmParse =>
    exact actionKept_hostOp (.inl (congrArg MasterRegs.last (answer_mst _ s)))
  case encLdfrm => exact actionKept_hostOp (.inl (congrArg MasterRegs.last (loadFrame_mst _ s)))
  case encRun => exact actionKept_hostOp (.inl (congrArg MasterRegs.last (hostRun_mst s)))
  case stx | ack | nak | cmdOther =>
    refine .inl (receive_last _ ?_ _ s)
    intro u
    rfl

/-! ### M_LAST under the turns -/

theorem actionKept_hostTurn {s t : State} (h : hostTurn s = .next t) : ActionKept s t := by
  unfold hostTurn at h
  split at h
  · cases h; exact .inl rfl
  · split at h
    · exact (actionKept_exec h :)
    · cases h; exact .inl rfl
    · cases h; exact .inl rfl

theorem m4_last (s : State) : (m4 s).mst.last = s.mst.last := by
  unfold m4
  split
  · unfold mTransmit
    split
    · rfl
    · simp
  · rfl

theorem m5_last (s : State) : (m5 s).mst.last = s.mst.last := by
  simp only [m5]
  split
  · rfl
  · split
    · simp only [mSent]; split <;> rfl
    · rfl

theorem m9_last (s : State) : (m9 s).mst.last = s.mst.last := by
  simp only [m9]; split <;> rfl

theorem actionKept_m6 {s t : State} (h : m6 s = .next t) : ActionKept s t := by
  unfold m6 at h
  split at h
  · split at h
    · exact (actionKept_exec h :)
    · cases h; exact .inl rfl
  · cases h; exact .inl rfl
  · cases h; exact .inl rfl

/-- Only the pick-up m2 writes M_LAST (R267). -/
theorem actionKept_mRun {k : MStep} (hk : k ≠ .m2) {s t : State} (h : mRun k s = .next t) : ActionKept s t := by
  cases k
  case m2 => exact absurd rfl hk
  case m6 => exact actionKept_m6 h
  all_goals cases h
  case m1 | m3 | m7 | m8 => exact .inl rfl
  case m4 => exact .inl (m4_last s)
  case m5 => exact .inl (m5_last s)
  case m9 => exact .inl (m9_last s)

/-- While an action is in flight the master picks up no other. -/
theorem actionKept_masterTurn {s t : State} (hs : s.mst.state ≠ .idle) (h : masterTurn s = .next t) : ActionKept s t := by
  unfold masterTurn at h
  split at h
  · split at h
    · rename_i k hk
      refine actionKept_mRun ?_ h
      rintro rfl
      have hguard : mGuard s .m2 = true := List.find?_some hk
      exact hs (of_decide_eq_true hguard).1
    · cases h; exact .inl rfl
  · cases h; exact .inl rfl

theorem actionKept_s4 {s t : State} (h : s4 s = .next t) : ActionKept s t := by
  unfold s4 at h
  split at h
  · split at h
    · exact (actionKept_exec h :)
    · cases h; exact .inl rfl
  · cases h; exact .inl rfl
  · cases h; exact .inl rfl

theorem s1_last (s : State) : (s1 s).mst.last = s.mst.last := by
  unfold s1
  split
  · simp
  · rfl

theorem actionKept_sRun {k : SStep} {s t : State} (h : sRun k s = .next t) : ActionKept s t := by
  cases k
  case s4 => exact actionKept_s4 h
  all_goals cases h
  case s1 => exact .inl (s1_last s)
  case s3 => rw [s3_eq]; exact .inl rfl
  case s2 | s5 | s6 => exact .inl rfl

theorem actionKept_slaveTurn {s t : State} (h : slaveTurn s = .next t) : ActionKept s t := by
  unfold slaveTurn at h
  split at h
  · split at h
    · exact actionKept_sRun h
    · cases h; exact .inl rfl
  · cases h; exact .inl rfl

theorem actionKept_agentTurn {a : Agent} {s t : State} (hs : s.mst.state ≠ .idle) (h : agentTurn a s = .next t) :
    ActionKept s t := by
  cases a
  case host => exact actionKept_hostTurn h
  case master => exact actionKept_masterTurn hs h
  case slave => exact actionKept_slaveTurn h
  all_goals cases h
  case enc => exact .inl (congrArg MasterRegs.last (encTurn_mst s))
  case dec => exact .inl (congrArg MasterRegs.last (decTurn_mst s))
  case clk => exact .inl (congrArg MasterRegs.last (clkTurn_mst s))
  case resetIn => exact .inr (atReset_resetRegs s)

/-! ### What a transmission puts into the encoder (R268) -/

/-- A turn after which the master waits for a transmission that it did not wait for before has built M_LAST's Frame. -/
theorem masterTurn_transmits {s t : State} (hc : s.cfgValid = true) (hr : s.cfg.role = .master)
    (hm : s.cfg.mode = .dataFrame) (hs : s.mst.state = .sending) (htx : s.mst.txWait = false)
    (h : masterTurn s = .next t) (ht : t.mst.txWait = true) :
    ∃ act f, s.mst.last = some act ∧ frmBuild s.cfg.nCh act.addr act.cmd act.data = .ok f ∧
      t.enc = { s.enc with
        frm := some f, bits := codeBits s.cfg (bytes2bits (frmSerialize f)), slot := 0, err := .ok
        phase := .transmitting } := by
  cases hstop : s.mst.stopReq with
  | true =>
    rw [masterTurn_of_guard hc hr (k := .m3) (by simp [mGuard, hs, htx, hstop])] at h
    cases h
    exact absurd (htx.symm.trans ht) (by decide)
  | false =>
    rw [masterTurn_of_guard hc hr (k := .m4) (by simp [mGuard, hs, htx, hstop])] at h
    cases h
    cases hlast : s.mst.last with
    | none =>
      rw [m4, hlast] at ht
      exact absurd (htx.symm.trans ht) (by decide)
    | some act =>
      rw [m4_eq hlast] at ht ⊢
      cases hbuild : frmBuild s.cfg.nCh act.addr act.cmd act.data with
      | error e =>
        rw [hbuild] at ht
        exact absurd (htx.symm.trans ht) (by decide)
      | ok f => exact ⟨act, f, rfl, hbuild, by rw [mTransmit_frame hm]⟩

/-- Settles O43: M_LAST is kept by every turn, and it determines with the configuration what is built and coded. -/
theorem retriesSendTheSameFrame : Obligations.RetriesSendTheSameFrame := by
  refine ⟨fun s t h hs => ?_, fun s s' t t' h h' hc hr hm hc' hcfg hs htx hs' htx' hlast ht ht' => ?_⟩
  · obtain ⟨turns, n, hturn⟩ := takeTurn_rest s
    rw [step, hturn] at h
    exact actionKept_agentTurn (s := { s with sched := turns, free := n }) hs h
  · obtain ⟨act, f, hact, hbuild, henc⟩ := masterTurn_transmits hc hr hm hs htx h ht
    rw [← hcfg] at hr hm
    obtain ⟨act', f', hact', hbuild', henc'⟩ := masterTurn_transmits hc' hr hm hs' htx' h' ht'
    obtain rfl : act' = act := Option.some_inj.mp (hact'.symm.trans (hlast.trans hact))
    rw [hcfg] at hbuild' henc'
    obtain rfl : f' = f := Except.ok.inj (hbuild'.symm.trans hbuild)
    rw [henc, henc']
    exact ⟨rfl, rfl, rfl, rfl⟩

end Sys2Proof.Machine
end

section
/-! PROOF. CFG (R310 to R312, R315): the registers a record asks for, the derived constants and ROMs element by element, and the
ten checks as propositions. -/

namespace Sys2Proof.Machine

/-! ### The refusals (R310) -/

section
variable {o : Operands} {s : State} (hform : formCfg o = true)
include hform

theorem cfg_refuses_alreadyConfigured (hc : s.cfgValid = true) : refuses .alreadyConfigured (.cfg o) s :=
  refuses_of_firstError (i := .cfg o) rfl hform (by simp [hc]) (by decide)

theorem cfg_refuses_configError (hc : s.cfgValid = false) (hp : cfgValidRecord s.params.chMax o.payload s.cfg = false) :
    refuses .configError (.cfg o) s :=
  refuses_of_firstError (i := .cfg o) rfl hform (by simp [hc, needValidRecord, hp]) (by decide)

theorem exec_cfg_valid (hc : s.cfgValid = false) (hp : cfgValidRecord s.params.chMax o.payload s.cfg = true) :
    exec (.cfg o) s = .next (respond .ok [] (configure o.payload s)) :=
  congrArg Host.Outcome.next (hostOp_done hform (by simp [hc, needValidRecord, hp])
    (fun s => respond .ok [] (configure o.payload s)) s)

/-- CFG answers ConfigError only where the record fails the checks: where it passes, the response is Ok. -/
theorem cfg_refuses_configError_iff (hc : s.cfgValid = false) :
    refuses .configError (.cfg o) s ↔ ¬ cfgValidRecord s.params.chMax o.payload s.cfg = true := by
  refine ⟨fun h hp => ?_, fun hp => cfg_refuses_configError hform hc (Bool.eq_false_of_not_eq_true hp)⟩
  have hres := congrArg State.resCode (Host.Outcome.next.inj ((exec_cfg_valid hform hc hp).symm.trans h))
  exact absurd hres (by simp)

end

/-! ### The ten checks (R311) -/

theorem isPow2_iff {m : Nat} : isPow2 m = true ↔ ∃ k, m = 2 ^ k := by
  rw [isPow2, beq_iff_eq]
  refine ⟨fun h => ⟨_, h⟩, ?_⟩
  rintro ⟨k, rfl⟩
  rw [Nat.log2_two_pow]

/-- Check 4 on what the record gives, in the registers it asks for. -/
theorem recFractionsOk_iff (p : List Byte) (old : CfgRegs) : recFractionsOk p = true ↔
    (recGiven p 0 = true → recNat p 22 4 ≠ 0 ∧ 0 < (recRegs p old).tOnePulse) ∧
    (recGiven p 1 = true → recNat p 30 4 ≠ 0 ∧ 0 ≤ (recRegs p old).tBreak) ∧
    (recGiven p 2 = true →
      recNat p 38 4 ≠ 0 ∧ 0 ≤ (recRegs p old).fadeLength ∧ (recRegs p old).fadeLength ≤ 1 / 2) ∧
    (recGiven p 6 = true → recNat p 50 4 ≠ 0) := by
  have hpulse : recGiven p 0 = true → (recRegs p old).tOnePulse = recFrac p 18 := fun h => if_pos h
  have hbreak : recGiven p 1 = true → (recRegs p old).tBreak = recFrac p 26 := fun h => if_pos h
  have hfade : recGiven p 2 = true → (recRegs p old).fadeLength = recFrac p 34 := fun h => if_pos h
  simp +contextual only [recFractionsOk, recDen, Bool.and_eq_true, Bool.or_eq_true, decide_eq_true_eq, Bool.not_eq_true',
    bne_iff_ne, or_iff_not_imp_left, Bool.not_eq_false, and_assoc, hpulse, hbreak, hfade]

/-- The other nine checks. -/
theorem cfgRegsOk_iff (chMax : Nat) (c : CfgRegs) : cfgRegsOk chMax c = true ↔
    0 < c.sampleRate ∧
    ((∃ k, c.nCh = 2 ^ k) ∧ 1 ≤ c.nCh ∧ c.nCh ≤ chMax) ∧
    (0 < c.firstFreq ∧ 0 < c.freqStep) ∧
    (1 ≤ lenDec c ∧ lenEnc c < 2 ^ 31) ∧
    (c.nfftValid = true → ∃ k, c.nfft = 2 ^ k) ∧
    (c.nfftValid = true → lenDec c ≤ c.nfft) ∧
    (c.nfftValid = true → 2 ≤ binLo c 0 ∧ 2 * binHi c (c.nCh - 1) ≤ c.nfft) ∧
    (c.role = .slave → 0x01 ≤ c.devAddr.toNat ∧ c.devAddr.toNat ≤ 0xFE) ∧
    (c.role ≠ .standalone → c.mode = .dataFrame ∧ c.nfftValid = true ∧ c.thrValid = true) := by
  simp only [cfgRegsOk, Bool.and_eq_true, Bool.or_eq_true, decide_eq_true_eq, Bool.not_eq_true', beq_iff_eq, bne_iff_ne,
    isPow2_iff, or_iff_not_imp_left, Bool.not_eq_false, not_not, and_assoc, ne_eq]

/-- Settles O4: the checks as propositions, check 4 in its place among the others. -/
theorem cfgChecksTheTenConditions : Obligations.CfgChecksTheTenConditions := by
  intro o s hform hc p c
  rw [cfg_refuses_configError_iff hform hc, cfgValidRecord, Bool.and_eq_true, recFractionsOk_iff _ s.cfg, cfgRegsOk_iff]
  refine not_congr ⟨?_, ?_⟩
  · rintro ⟨hfrac, hrate, hch, hband, hrest⟩
    exact ⟨hrate, hch, hband, hfrac, hrest⟩
  · rintro ⟨hrate, hch, hband, hfrac, hrest⟩
    exact ⟨hfrac, hrate, hch, hband, hrest⟩

/-! ### The registers a record asks for (R22, R315) -/

theorem recRole_recRegs {o : Operands} (h : formCfg o = true) (old : CfgRegs) :
    recRole o.payload = some (recRegs o.payload old).role := by
  have hsome : (recRole o.payload).isSome = true := by simp_all [formCfg]
  obtain ⟨role, hrole⟩ := Option.isSome_iff_exists.mp hsome
  rw [recRegs, hrole, Option.getD_some]

theorem recRegs_devAddr (p : List Byte) (old : CfgRegs) :
    (recRegs p old).devAddr = if (recRegs p old).role = .slave then p.getD 1 0 else 0x00 := by
  cases h : recRole p <;> simp [recRegs, h, MASTER_ADDR]

theorem recRegs_mode (p : List Byte) (old : CfgRegs) :
    (recRegs p old).mode = if recGiven p 4 && !recValue p 1 then .simple else .dataFrame := by
  cases hg : recGiven p 4 <;> cases hv : recValue p 1 <;> simp [recRegs, hg, hv]

/-! ### The derived constants and ROMs (R25 to R27, R160 to R166, R197) -/

section
variable (params : Params) (c : CfgRegs) (old : Rom)

theorem deriveRom_channels {i : Nat} (hi : i < c.nCh) :
    (deriveRom params c old).low[i]? = some (c.firstFreq + i * 2 * c.freqStep) ∧
      (deriveRom params c old).high[i]? = some (c.firstFreq + c.freqStep + i * 2 * c.freqStep) := by
  simp [deriveRom, hi, lowFreq, highFreq]

theorem deriveRom_nEnc : (deriveRom params c old).nEnc = ⌈(c.tOnePulse + c.tBreak) * c.sampleRate⌉.toNat :=
  congrArg Int.toNat (ratCeil_eq _)

theorem deriveRom_nDec : (deriveRom params c old).nDec = ⌈c.tOnePulse * c.sampleRate⌉.toNat :=
  congrArg Int.toNat (ratCeil_eq _)

/-- TONE[i][b][k] is the tone of R162 to R164 by the lengths that were derived. -/
theorem toneBuffer_getElem? (f : Rat) {k : Nat} (hk : k < lenEnc c) :
    (toneBuffer c f)[k]? = some (toneValue c (deriveRom params c old) f k) := by
  rw [toneValue_eq rfl rfl rfl]
  simp [toneBuffer, hk]

@[simp] theorem toneBuffer_length (f : Rat) : (toneBuffer c f).length = lenEnc c := by simp [toneBuffer]

theorem toneRom_getElem? {i : Nat} (hi : i < c.nCh) :
    (toneRom c)[i]? = some (toneBuffer c (lowFreq c i), toneBuffer c (highFreq c i)) := by
  simp [toneRom, hi, freq]

/-- A calibration sample is the tone's, which never leaves −1..1, quantised without clipping. -/
theorem calBuffer_getElem? {k : Nat} (hk : k < lenEnc c) : ∃ v, (calBuffer params.calFreq c)[k]? = some v ∧
    v.toInt = quantised (toneValue c (deriveRom params c old) params.calFreq k) := by
  refine ⟨_, by rw [calBuffer, List.getElem?_map, toneBuffer_getElem? params c old _ hk]; rfl, ?_⟩
  rw [toneValue_eq rfl rfl rfl]
  exact q16_toInt (abs_toneSample_le _ _ _)

/-- What CFG derives from NFFT, where it was given. -/
theorem deriveRom_spectrum (hv : c.nfftValid = true) (hn : 0 < c.nCh) :
    let r := deriveRom params c old
    r.deltaF = c.sampleRate / c.nfft ∧ r.win.length = r.nDec ∧
      (∀ k < r.nDec, r.win[k]? = some (if r.nDec = 1 then 1
        else 54 / 100 - 46 / 100 * numCos (2 * numPi * k / ((r.nDec : Rat) - 1)))) ∧
      (∀ i < c.nCh,
        r.kLo[i]? = some ⌈(c.firstFreq + i * 2 * c.freqStep - r.deltaF) / r.deltaF⌉.toNat ∧
        r.kHi[i]? = some ⌊(c.firstFreq + c.freqStep + i * 2 * c.freqStep + r.deltaF) / r.deltaF⌋.toNat) ∧
      r.kLo[0]? = some r.bLo ∧ r.kHi[c.nCh - 1]? = some r.bHi := by
  have hlo {i : Nat} (hi : i < c.nCh) : (deriveRom params c old).kLo[i]? = some (binLo c i) := by simp [deriveRom, hv, hi]
  have hhi {i : Nat} (hi : i < c.nCh) : (deriveRom params c old).kHi[i]? = some (binHi c i) := by simp [deriveRom, hv, hi]
  have hdelta : (deriveRom params c old).deltaF = deltaF c := if_pos hv
  have hwin : (deriveRom params c old).win = windowRom c := if_pos hv
  have hblo : (deriveRom params c old).bLo = binLo c 0 := if_pos hv
  have hbhi : (deriveRom params c old).bHi = binHi c (c.nCh - 1) := if_pos hv
  intro r
  refine ⟨hdelta, ?_, fun k hk => ?_, fun i hi => ⟨?_, ?_⟩, ?_, ?_⟩
  · rw [hwin, windowRom, List.length_map, List.length_range]; rfl
  · rw [hwin, windowRom, List.getElem?_map, List.getElem?_range (show k < lenDec c from hk)]; rfl
  · rw [hlo hi, hdelta, binLo, ratCeil_eq]; rfl
  · rw [hhi hi, hdelta]; rfl
  · rw [hlo hn, hblo]
  · rw [hhi (Nat.sub_one_lt_of_lt hn), hbhi]

end

/-- Settles O3: a record that passes the checks has its registers in range, so the sounding segment fits into its buffer; what
stands in the registers and the ROMs is said element by element above. -/
theorem cfgWritesTheConfiguration : Obligations.CfgWritesTheConfiguration := by
  intro o s hform p
  refine ⟨cfg_refuses_alreadyConfigured hform, cfg_refuses_configError hform, fun hc hp => ?_⟩
  have hok := hp
  rw [cfgValidRecord, Bool.and_eq_true] at hok
  obtain ⟨hfrac, hregs⟩ := hok
  have hlegal := legalRegs_of_ok hregs
  obtain ⟨hpulse, hbreak, -⟩ := recRegs_ranges hfrac hlegal.band.2
  have hfits := sounding_fits hlegal.sampleRate hpulse hbreak
  refine ⟨recRegs p s.cfg, deriveRom s.params (recRegs p s.cfg) s.rom, exec_cfg_valid hform hc hp, recRole_recRegs hform _,
    recRegs_devAddr p s.cfg, rfl, rfl, rfl, rfl, rfl, rfl, rfl, rfl, recRegs_mode p s.cfg, rfl, fun h => if_pos h, rfl,
    fun h => if_pos h, fun i hi => deriveRom_channels _ _ _ hi, ?_, ?_, deriveRom_nEnc _ _ _, deriveRom_nDec _ _ _, rfl, rfl,
    ?_, rfl, ?_, fun i hi => ⟨_, _, toneRom_getElem? _ hi, toneBuffer_length _ _, toneBuffer_length _ _, fun k hk =>
      ⟨toneBuffer_getElem? _ _ _ _ hk, toneBuffer_getElem? _ _ _ _ hk⟩⟩, ?_,
    fun k hk => calBuffer_getElem? _ _ _ hk, fun hv => deriveRom_spectrum _ _ _ hv hlegal.channels.1⟩
  · simp [deriveRom]
  · simp [deriveRom]
  · show lenEnc _ = lenBrk _ + lenDec _ + lenTail _
    unfold lenTail; omega
  · simp [deriveRom, toneRom]
  · simp [deriveRom, calBuffer]

end Sys2Proof.Machine
end

section
/-! PROOF. RST (R313, R351) and RDST (R314, R40). -/

namespace Sys2Proof.Machine

/-- Settles O1: RST has no check, and its effect is the transition that a turn of the reset input takes. -/
theorem rstIsTheResetTransition : Obligations.RstIsTheResetTransition := by
  intro o s hform
  have hrst (u : State) : exec (.rst o) u = .next (resetRegs u) := congrArg _ (hostOp_done hform rfl resetRegs u)
  refine ⟨_, hrst s, atReset_resetRegs s, rfl, rfl, rfl, rfl, rfl, fun rest => ?_⟩
  rw [hrst, step_listed (s := { s with sched := .resetIn :: rest }) rfl]
  rfl

/-! ### The fields of a word built by appending (R40) -/

section
variable {n m : Nat} {x : BitVec n} {y : BitVec m}

theorem field_of_append_low : (x ++ y).extractLsb' 0 m = y := by
  rw [BitVec.extractLsb'_append_eq_of_add_le (Nat.zero_add m).le, BitVec.extractLsb'_eq_self]

theorem field_of_append_high {start len : Nat} {v : BitVec len} (h : x.extractLsb' start len = v) :
    (x ++ y).extractLsb' (start + m) len = v := by
  rw [BitVec.extractLsb'_append_eq_of_le (Nat.le_add_left m start), Nat.add_sub_cancel, h]

theorem getLsbD_of_field {i : Nat} {b : Bool} (h : x.extractLsb' i 1 = statusBit b) : x.getLsbD i = b := by
  have hbit := congrArg (·.getLsbD 0) h
  simpa [statusBit] using hbit

end

/-- The fields of STATUS at their places (R40). -/
theorem status_fields (s : State) :
    (status s).extractLsb' 0 1 = statusBit s.cfgValid ∧
    (status s).extractLsb' 1 1 = statusBit (s.enc.phase == .transmitting) ∧
    (status s).extractLsb' 2 1 = statusBit s.dec.run ∧
    (status s).extractLsb' 3 1 = statusBit s.dec.alive ∧
    (status s).extractLsb' 4 1 = statusBit s.dec.eot ∧
    (status s).extractLsb' 5 1 = statusBit s.dec.ded ∧
    (status s).extractLsb' 6 1 = statusBit (s.dec.err == .ioError) ∧
    (status s).extractLsb' 7 1 = statusBit s.dec.ovf ∧
    (status s).extractLsb' 8 2 = statusRole s ∧
    (status s).extractLsb' 10 2 = statusMst s ∧
    (status s).extractLsb' 12 1 = statusBit s.mst.pend.isSome ∧
    (status s).extractLsb' 13 1 = statusBit (statusSst s) ∧
    (status s).extractLsb' 14 1 = statusBit s.slv.run ∧
    (status s).extractLsb' 15 1 = statusBit s.hslot.isSome ∧
    (status s).extractLsb' 16 8 = errCode s.lerr ∧
    (status s).extractLsb' 24 8 = 0 := by
  rw [status]
  refine ⟨?_, ?_, ?_, ?_, ?_, ?_, ?_, ?_, ?_, ?_, ?_, ?_, ?_, ?_, ?_, ?reserved⟩
  case reserved =>
    iterate 15 apply field_of_append_high
    exact BitVec.extractLsb'_eq_self
  all_goals
    repeat apply field_of_append_high
    exact field_of_append_low

/-- Settles O6: RDST has no check, and what it answers is STATUS, whose fields are bits and codes of the registers. -/
theorem rdstAnswersStatus : Obligations.RdstAnswersStatus := by
  intro o s hform
  obtain ⟨hcfgv, hencb, hdrun, hdalv, heot, hded, hdioe, hrovf, hrole, hmst, hmpnd, hsst, hsrun, hhsf, hlerr, hres⟩ :=
    status_fields s
  refine ⟨status s, congrArg _ (hostOp_done hform rfl (fun s => respond .ok (be32 (status s)) s) s),
    getLsbD_of_field hcfgv, getLsbD_of_field hencb, getLsbD_of_field hdrun, getLsbD_of_field hdalv, getLsbD_of_field heot,
    getLsbD_of_field hded, getLsbD_of_field hdioe, getLsbD_of_field hrovf, fun hc => hrole.trans (if_pos hc),
    fun hc => hmst.trans (if_congr (and_iff_right hc) rfl rfl), getLsbD_of_field hmpnd, fun hc => ?_,
    getLsbD_of_field hsrun, getLsbD_of_field hhsf, hlerr, hres⟩
  rw [getLsbD_of_field hsst, statusSst]
  exact decide_eq_decide.mpr (and_iff_right hc)

end Sys2Proof.Machine
end

section
/-! PROOF. Which operations an unconfigured block and each role accept (R316, R317): the order of checks that every host
operation shares (R324), and that none answers WrongRole but by the check of its role. -/

namespace Sys2Proof.Machine

/-! ### The checks of configuration and role (R324) -/

/-- The role the table of R317 demands for an operation. -/
def neededRole : Instr → Option Role
  | .encLdhex _ | .encLdfrm _ | .encRun _ | .decStart _ | .decStop _ | .decRdfrm _ => some .standalone
  | .mSend _ | .mSendbc _ | .mIdle _ | .mStop _ | .mSetto _ => some .master
  | .sStart _ | .sStop _ => some .slave
  | _ => none

/-- The check of an operation on CFG_VALID: CFG needs it clear, RST and RDST run in every state, the others need it set. -/
def cfgChecks (s : State) : Instr → List (Option ErrCode)
  | .cfg _ => [needNoCfg s]
  | .rst _ | .rdst _ => []
  | _ => [needCfg s]

/-- The check of an operation on ROLE. -/
def roleChecks (s : State) : Option Role → List (Option ErrCode)
  | none => []
  | some r => [needRole r s]

theorem neededRole_of_opcode {op : Byte} {i : Instr} (h : opcodeOf i = some op) : neededRole i =
    if op ∈ [0x20, 0x21, 0x22, 0x30, 0x31, 0x33] then some .standalone
    else if op ∈ [0x50, 0x51, 0x52, 0x53, 0x54] then some .master
    else if op ∈ [0x58, 0x59] then some .slave
    else none := by
  cases i <;> cases h <;> rfl

theorem cfgChecks_of_neededRole {i : Instr} {r : Role} (h : neededRole i = some r) (s : State) :
    cfgChecks s i = [needCfg s] := by
  cases i <;> cases h <;> rfl

theorem wrongRole_notMem_cfgChecks (s : State) (i : Instr) : some .wrongRole ∉ cfgChecks s i := by
  cases i <;> simp [cfgChecks, needCfg, needNoCfg]

theorem wrongRole_notMem_roleChecks {s : State} {needed : Option Role} (h : needed = none ∨ needed = some s.cfg.role) :
    some .wrongRole ∉ roleChecks s needed := by
  obtain rfl | rfl := h <;> simp [roleChecks]

theorem cfgChecks_of_opcode {op : Byte} {i : Instr} (h : opcodeOf i = some op) (hop : op ∉ [0x01, 0x02, 0x03]) (s : State) :
    cfgChecks s i = [needCfg s] := by
  cases i
  case cfg | rst | rdst => cases h; exact absurd (by decide) hop
  all_goals rfl

/-! ### Effects that do not answer WrongRole -/

theorem answer_resCode_ne {e : ErrCode} (he : e ≠ .ok) {r : Except ErrCode (List Byte)} (hr : r ≠ .error e) (s : State) :
    (answer r s).resCode ≠ e := by
  cases r with
  | ok buf => exact he.symm
  | error err => exact fun h => hr (congrArg Except.error h)

theorem frmBuild_ne_wrongRole (n : Nat) (addr : Byte) (cmd : Option Byte) (data : Option (List Byte)) :
    frmBuild n addr cmd data ≠ .error .wrongRole := by
  unfold frmBuild
  repeat' split
  all_goals nofun

theorem buildAnswer_ne_wrongRole (n : Nat) (o : Operands) : buildAnswer n o ≠ .error .wrongRole := by
  have hbuild := frmBuild_ne_wrongRole n o.a (opCmd o) (opData o)
  unfold buildAnswer
  split
  · nofun
  · rename_i e he
    exact fun h => hbuild (he.trans (congrArg _ (Except.error.inj h)))

theorem fecDecAnswer_ne_wrongRole (w : List Bool) : fecDecAnswer w ≠ .error .wrongRole := by
  unfold fecDecAnswer
  split <;> nofun

theorem loadFrame_resCode_ne {e : ErrCode} (he : e ≠ .ok) {r : Except ErrCode Frame} (hr : r ≠ .error e) (s : State) :
    (loadFrame r s).resCode ≠ e := by
  cases r with
  | ok f => exact he.symm
  | error err => exact fun h => hr (congrArg Except.error h)

theorem rawBits_ne_wrongRole (c : CfgRegs) (e : EncRegs) : rawBits c e ≠ .error .wrongRole := by
  unfold rawBits
  split
  · split
    · nofun
    · rename_i herr
      rw [hex2bin_error herr]; nofun
  · split <;> nofun

theorem hostRun_resCode_ne_wrongRole {s : State} (hs : s.resCode ≠ .wrongRole) : (hostRun s).resCode ≠ .wrongRole := by
  cases h : rawBits s.cfg s.enc with
  | ok bits => rw [hostRun_starts h]; exact hs
  | error e =>
    rw [hostRun_fails h]
    exact fun he => rawBits_ne_wrongRole s.cfg s.enc (h.trans (congrArg _ he))

/-! ### Every host operation (R324) -/

theorem firstError_ne {l : List (Option ErrCode)} {e : ErrCode} (he : e ≠ .ok) (hl : some e ∉ l) : firstError l ≠ e := by
  induction l with
  | nil => exact he.symm
  | cons c l ih =>
    rw [List.mem_cons, not_or] at hl
    cases c with
    | none => exact ih hl.2
    | some err => exact fun h => hl.1 (congrArg some h.symm)

theorem hostOp_resCode_ne {form : Bool} {checks : List (Option ErrCode)} {body : State → State} {s : State} {e : ErrCode}
    (hform : form = true) (hchecks : firstError checks ≠ e) (hbody : (body s).resCode ≠ e) :
    (hostOp form checks body s).resCode ≠ e := by
  obtain ⟨err, -, hform' | rfl, h⟩ | ⟨-, -, h⟩ := hostOp_cases form checks body s
  · exact absurd (hform.symm.trans hform') (by decide)
  · rw [h]; exact hchecks
  · rw [h]; exact hbody

/-- A well-formed host operation checks the configuration first and its role next; neither a later check nor its effect
answers WrongRole. -/
theorem exec_eq_hostOp {i : Instr} {s : State} (hi : (opcodeOf i).isSome = true) (hwf : i.wellFormed = true)
    (hhex : ∀ p, i = .encLdhex p → p.payload.length ≤ s.params.hexMax) :
    ∃ form rest body, form = true ∧
      exec i s = .next (hostOp form (cfgChecks s i ++ (roleChecks s (neededRole i) ++ rest)) body s) ∧
      some .wrongRole ∉ rest ∧ (s.resCode ≠ .wrongRole → (body s).resCode ≠ .wrongRole) := by
  cases i
  case stx | ack | nak | cmdOther => cases hi
  case hex2bin o =>
    have herr : hex2bin o.payload ≠ .error .wrongRole := fun h => absurd (hex2bin_error h) (by decide)
    exact ⟨_, _, _, hwf, rfl, List.not_mem_nil, fun _ => answer_resCode_ne (by decide) herr s⟩
  case fecDec o =>
    exact ⟨_, _, _, hwf, rfl, List.not_mem_nil, fun _ => answer_resCode_ne (by decide) (fecDecAnswer_ne_wrongRole _) s⟩
  case frmBuild o =>
    exact ⟨_, _, _, hwf, rfl, List.not_mem_nil, fun _ => answer_resCode_ne (by decide) (buildAnswer_ne_wrongRole _ o) s⟩
  case encLdhex o =>
    have hform : formHex s.params.hexMax o = true := by simp [formHex, show formPayload o = true from hwf, hhex o rfl]
    exact ⟨_, _, _, hform, rfl, by simp [needMode, needEncIdle], nofun⟩
  case encLdfrm o =>
    exact ⟨_, _, _, hwf, rfl, by simp [needMode, needEncIdle], fun _ =>
      loadFrame_resCode_ne (by decide) (frmBuild_ne_wrongRole _ _ _ _) s⟩
  case encRun o => exact ⟨_, _, _, hwf, rfl, by simp [needEncIdle], hostRun_resCode_ne_wrongRole⟩
  all_goals
    exact ⟨_, _, _, hwf, rfl, by simp [needValidRecord, needMode, needDecoder, needDecDead, needMasterFree], nofun⟩

/-- Settles O50: of an operation that needs a configuration this is the first check. -/
theorem unconfiguredOperationsAreRefused : Obligations.UnconfiguredOperationsAreRefused := by
  intro op o i s hi hop hwf hhex hc
  obtain ⟨form, rest, body, hform, hexec, -, -⟩ := exec_eq_hostOp (opcodeOf_hostInstr hi) hwf hhex
  rw [cfgChecks_of_opcode (opcodeOf_eq_of_hostInstr hi) hop] at hexec
  exact refuses_of_firstError hexec hform (by simp [hc]) (by decide)

/-- Settles O51: in a configured block the check of the role is the first that can fail where there is one, and no other check
and no effect answers WrongRole. -/
theorem rolesAcceptTheirOperations : Obligations.RolesAcceptTheirOperations := by
  intro op o i s hi hwf hhex hc needed
  have hneeded : neededRole i = needed := neededRole_of_opcode (opcodeOf_eq_of_hostInstr hi)
  obtain ⟨form, rest, body, hform, hexec, hrest, hbody⟩ := exec_eq_hostOp (opcodeOf_hostInstr hi) hwf hhex
  rw [hneeded] at hexec
  refine ⟨fun r hr hother => ?_, fun hfits hres t ht => ?_⟩
  · rw [cfgChecks_of_neededRole (hneeded.trans hr), hr] at hexec
    exact refuses_of_firstError hexec hform (by simp [roleChecks, hc, hother]) (by decide)
  · obtain rfl := Host.Outcome.next.inj (hexec.symm.trans ht)
    refine hostOp_resCode_ne hform (firstError_ne (by decide) ?_) (hbody hres)
    simp only [List.mem_append, not_or]
    exact ⟨wrongRole_notMem_cfgChecks s i, wrongRole_notMem_roleChecks hfits, hrest⟩

end Sys2Proof.Machine
end

section
/-! PROOF. Nothing stops the block (R325): an instruction that is run ends in a next state, and everything else a turn does
is a next state by itself. -/

namespace Sys2Proof.Machine

theorem safe_next (s : State) : safe (.next s) := ⟨s, rfl⟩

theorem safe_exec (i : Instr) (s : State) : safe (exec i s) := exec_next i s

/-- A packet with an unlisted opcode is answered, and one that has not arrived whole is waited for (R96). -/
theorem safe_hostTurn (s : State) : safe (hostTurn s) := by
  unfold hostTurn
  split
  · exact safe_next _
  · split
    · exact safe_exec _ _
    · exact safe_next _
    · exact safe_next _

/-! ### The transports: only a received Frame is run as an instruction (R271, R287) -/

theorem safe_m6 (s : State) : safe (m6 s) := by
  unfold m6
  split
  · split
    · exact safe_exec _ _
    · exact safe_next _
  · exact safe_next _
  · exact safe_next _

theorem safe_s4 (s : State) : safe (s4 s) := by
  unfold s4
  split
  · split
    · exact safe_exec _ _
    · exact safe_next _
  · exact safe_next _
  · exact safe_next _

theorem safe_mRun (k : MStep) (s : State) : safe (mRun k s) := by
  cases k
  case m6 => exact safe_m6 s
  all_goals exact safe_next _

theorem safe_sRun (k : SStep) (s : State) : safe (sRun k s) := by
  cases k
  case s4 => exact safe_s4 s
  all_goals exact safe_next _

theorem safe_masterTurn (s : State) : safe (masterTurn s) := by
  unfold masterTurn
  split
  · split
    · exact safe_mRun _ s
    · exact safe_next s
  · exact safe_next s

theorem safe_slaveTurn (s : State) : safe (slaveTurn s) := by
  unfold slaveTurn
  split
  · split
    · exact safe_sRun _ s
    · exact safe_next s
  · exact safe_next s

/-! ### The step -/

theorem safe_agentTurn (a : Agent) (s : State) : safe (agentTurn a s) := by
  cases a
  case host => exact safe_hostTurn s
  case master => exact safe_masterTurn s
  case slave => exact safe_slaveTurn s
  case enc | dec | clk | resetIn => exact safe_next _

/-- Settles O58: a step is the turn of some agent, and every agent's turn is safe. -/
theorem nothingStopsTheBlock : Obligations.NothingStopsTheBlock := fun _ => safe_agentTurn _ _

end Sys2Proof.Machine
end

section
/-! PROOF. When an agent passes its turn (R72; log 3), and that in an unconfigured block ENC, DEC, MASTER and SLAVE always do
(R350, R316). -/

namespace Sys2Proof.Machine

variable {s : State}

theorem encTurn_of_idle (h : s.enc.phase = .idle) : encTurn s = s := if_neg (by simp [h])

theorem decTurn_of_not_alive (h : s.dec.alive = false) : decTurn s = s := if_neg (by simp [h])

theorem masterTurn_of_not_isMaster (h : ¬ isMaster s = true) : masterTurn s = .next s := if_neg h

theorem slaveTurn_of_not_isSlave (h : ¬ isSlave s = true) : slaveTurn s = .next s := if_neg h

theorem ConfigInv.encoderIdle (h : ConfigInv s) (hc : s.cfgValid = false) : s.enc.phase = .idle := by
  rw [(h.bare hc).1, EncRegs.reset]

theorem ConfigInv.decoderDead (h : ConfigInv s) (hc : s.cfgValid = false) : s.dec.alive = false := by
  obtain ⟨-, ⟨frame, hdec⟩, -⟩ := h.bare hc
  rw [hdec, DecRegs.reset]

/-- Settles O2: by the invariant the encoder is Idle and no decoder is alive, and an unconfigured block is neither a master nor
a slave. -/
theorem unconfiguredAgentsDoNothing : Obligations.UnconfiguredAgentsDoNothing := by
  intro s h hc
  have hmaster : ¬ isMaster s = true := by simp [isMaster_iff, hc]
  have hslave : ¬ isSlave s = true := by simp [isSlave_iff, hc]
  exact ⟨congrArg Host.Outcome.next (encTurn_of_idle (h.encoderIdle hc)),
    congrArg Host.Outcome.next (decTurn_of_not_alive (h.decoderDead hc)),
    masterTurn_of_not_isMaster hmaster, slaveTurn_of_not_isSlave hslave⟩

end Sys2Proof.Machine
end
